-- ==== Sys2Proof/Word.lean ====
section
/-! DEFINITION. The word types of the tone detector and little-endian byte assembly (spec/20_memory.md R47). -/

namespace Sys2Proof

/-- A 32-bit register, data or result word (spec/00_scope.md R7). A binary32 value is held as its pattern (R10). -/
abbrev Word := BitVec 32

/-- One byte lane of a word (spec/20_memory.md R47). -/
abbrev Byte := BitVec 8

/-- A bank of 16 words: COEF[0..15] or POWER[0..15] (spec/00_scope.md R7). -/
abbrev Bank := Vector Word 16

/-- A slot index, 0..15 (spec/00_scope.md glossary: slot). -/
abbrev Slot := Fin 16

end Sys2Proof
end

