-- ==== Sys2Proof/Syntax.lean ====
section
/-! DEFINITION. The instructions: host bus operations and command words, one constructor per row of spec/opcode_table.json
(spec/30_encoding.md R58-R64), and the two formats that encode them. -/

namespace Sys2Proof

/-- One instruction. Operands: `j` is the slot index OFF[5:2], `n` the symbol map index OFF[2] (R60); `off` is the byte offset
OFF of a row that covers several offsets; `write` is the selector's W bit of a bad access; `data` is the data word of a write.
The data word of a read "takes no part in selecting the operation" (R59) and is no operand (log 8). -/
inductive Instr where
  /-- RD_ID, R74 -/
  | rdId
  /-- RD_VERSION, R75 -/
  | rdVersion
  /-- RD_CTRL, R76 -/
  | rdCtrl
  /-- RD_WO at CMD, R78 -/
  | rdWoCmd
  /-- RD_STATUS, R79 -/
  | rdStatus
  /-- RD_IRQ_EN, R81 -/
  | rdIrqEn
  /-- RD_IRQ_STAT, R83 -/
  | rdIrqStat
  /-- RD_WIN_LEN, R85 -/
  | rdWinLen
  /-- RD_WIN_STEP, R87 -/
  | rdWinStep
  /-- RD_DB_GUARD, R89 -/
  | rdDbGuard
  /-- RD_THRESH, R91 -/
  | rdThresh
  /-- RD_RATIO, R93 -/
  | rdRatio
  /-- RD_WO at SAMPLE, R78 -/
  | rdWoSample
  /-- RD_RESULT, R146 -/
  | rdResult
  /-- RD_SAMPLE_CNT, R148 -/
  | rdSampleCnt
  /-- RD_WIN_CNT, R149 -/
  | rdWinCnt
  /-- RD_COEF, R95 -/
  | rdCoef (j : Slot)
  /-- RD_POWER, R147 -/
  | rdPower (j : Slot)
  /-- RD_SYMMAP, R97 -/
  | rdSymmap (n : Fin 2)
  /-- RD_RSVD at 0xC8, 0xCC, R100 -/
  | rdRsvdC8 (off : BitVec 8)
  /-- RD_RSVD at 0xD0-0xDC, R100 -/
  | rdRsvdD0 (off : BitVec 8)
  /-- RD_RSVD at 0xE0-0xFC, R100 -/
  | rdRsvdE0 (off : BitVec 8)
  /-- WR_RO at ID and VERSION, R99 -/
  | wrRoIdVersion (off : BitVec 8) (data : Word)
  /-- WR_CTRL, R77 -/
  | wrCtrl (data : Word)
  /-- WR_CMD, R102 -/
  | wrCmd (data : Word)
  /-- WR_STATUS, R80 -/
  | wrStatus (data : Word)
  /-- WR_IRQ_EN, R82 -/
  | wrIrqEn (data : Word)
  /-- WR_IRQ_STAT, R84 -/
  | wrIrqStat (data : Word)
  /-- WR_WIN_LEN, R86 -/
  | wrWinLen (data : Word)
  /-- WR_WIN_STEP, R88 -/
  | wrWinStep (data : Word)
  /-- WR_DB_GUARD, R90 -/
  | wrDbGuard (data : Word)
  /-- WR_THRESH, R92 -/
  | wrThresh (data : Word)
  /-- WR_RATIO, R94 -/
  | wrRatio (data : Word)
  /-- WR_SAMPLE, R115 -/
  | wrSample (data : Word)
  /-- WR_RO at RESULT, R99 -/
  | wrRoResult (data : Word)
  /-- WR_RO at SAMPLE_CNT and WIN_CNT, R99 -/
  | wrRoCounters (off : BitVec 8) (data : Word)
  /-- WR_COEF, R96 -/
  | wrCoef (j : Slot) (data : Word)
  /-- WR_RO at POWER[j], R99 -/
  | wrRoPower (j : Slot) (data : Word)
  /-- WR_SYMMAP, R98 -/
  | wrSymmap (n : Fin 2) (data : Word)
  /-- WR_RSVD at 0xC8, 0xCC, R101 -/
  | wrRsvdC8 (off : BitVec 8) (data : Word)
  /-- WR_RSVD at 0xD0-0xDC, R101 -/
  | wrRsvdD0 (off : BitVec 8) (data : Word)
  /-- WR_RSVD at 0xE0-0xFC, R101 -/
  | wrRsvdE0 (off : BitVec 8) (data : Word)
  /-- BAD_ACCESS, byte size, R61, R73 -/
  | badAccessSz0 (write : Bool) (off : BitVec 8)
  /-- BAD_ACCESS, halfword size, R61, R73 -/
  | badAccessSz1 (write : Bool) (off : BitVec 8)
  /-- BAD_ACCESS, reserved size, R61, R73 -/
  | badAccessSz3 (write : Bool) (off : BitVec 8)
  /-- BAD_ACCESS, word access at an odd offset, R61, R73 -/
  | badAccessOdd (write : Bool) (off : BitVec 8)
  /-- BAD_ACCESS, word access at an offset 2 mod 4, R61, R73 -/
  | badAccessHalf (write : Bool) (off : BitVec 8)
  /-- NOP, R106 -/
  | nop
  /-- START_SCAN, R107 -/
  | startScan
  /-- START_ONESHOT, R108 -/
  | startOneshot
  /-- END_STREAM, R109 -/
  | endStream
  /-- ABORT, R110 -/
  | abort
  /-- FLUSH, R111 -/
  | flush
  /-- SOFT_RESET, R112 -/
  | softReset
  /-- CMD_INVALID with the word written, R113 -/
  | cmdInvalid (word : Word)
  deriving DecidableEq, Repr

/-- A command, the second stage of WR_CMD (R62-R64): the seven words of R63 and every other word. -/
inductive Command where
  | nop
  | startScan
  | startOneshot
  | endStream
  | abort
  | flush
  | softReset
  | invalid (word : Word)
  deriving DecidableEq, Repr

/-- The instruction (CMD32 row) of a command. -/
def Command.instr : Command → Instr
  | .nop => .nop
  | .startScan => .startScan
  | .startOneshot => .startOneshot
  | .endStream => .endStream
  | .abort => .abort
  | .flush => .flush
  | .softReset => .softReset
  | .invalid word => .cmdInvalid word

/-- An instruction in one of the two formats of R58. -/
inductive Code where
  /-- BUSOP: an 11-bit selector {W, SZ, OFF} and a data word (R59). -/
  | busop (sel : BitVec 11) (data : Word)
  /-- CMD32: the data word of a write to CMD (R62). -/
  | cmd32 (word : Word)
  deriving DecidableEq, Repr

end Sys2Proof
end

