-- ==== Sys2Proof/WellFormed.lean ====
section
/-! DEFINITION. Which terms of `Instr` an encoding stands for (spec/30_encoding.md R60, R61, R64). Where a row covers several
offsets, the offset must be one of the row's; a CMD_INVALID word must be none of the seven command words. -/

namespace Sys2Proof

/-- The offset is word aligned and lies in lo..hi (R60's offset ranges). -/
def offsetIn (lo hi : Nat) (off : BitVec 8) : Bool :=
  off.toNat % 4 == 0 && decide (lo ≤ off.toNat) && decide (off.toNat ≤ hi)

/-- The check of an instruction's operands against its row. -/
def Instr.wellFormed : Instr → Bool
  | .rdRsvdC8 off | .wrRsvdC8 off _ => offsetIn 0xC8 0xCC off
  | .rdRsvdD0 off | .wrRsvdD0 off _ => offsetIn 0xD0 0xDC off
  | .rdRsvdE0 off | .wrRsvdE0 off _ => offsetIn 0xE0 0xFC off
  | .wrRoIdVersion off _ => offsetIn 0x00 0x04 off
  | .wrRoCounters off _ => offsetIn 0x38 0x3C off
  | .badAccessOdd _ off => off.toNat % 2 == 1
  | .badAccessHalf _ off => off.toNat % 4 == 2
  | .cmdInvalid word => decide (7 ≤ word.toNat)
  | .badAccessSz0 _ _ | .badAccessSz1 _ _ | .badAccessSz3 _ _ => true
  | .rdId | .rdVersion | .rdCtrl | .rdWoCmd | .rdStatus | .rdIrqEn | .rdIrqStat | .rdWinLen | .rdWinStep | .rdDbGuard
  | .rdThresh | .rdRatio | .rdWoSample | .rdResult | .rdSampleCnt | .rdWinCnt | .rdCoef _ | .rdPower _ | .rdSymmap _ => true
  | .wrCtrl _ | .wrCmd _ | .wrStatus _ | .wrIrqEn _ | .wrIrqStat _ | .wrWinLen _ | .wrWinStep _ | .wrDbGuard _ | .wrThresh _
  | .wrRatio _ | .wrSample _ | .wrRoResult _ | .wrCoef _ _ | .wrRoPower _ _ | .wrSymmap _ _ => true
  | .nop | .startScan | .startOneshot | .endStream | .abort | .flush | .softReset => true

end Sys2Proof
end

