-- ==== Sys2Proof/Decode.lean ====
section
/-! DEFINITION. The decoder (total on every selector, data word and byte string) and, after it, the encoder
(spec/30_encoding.md R58-R64). The layout of a frame in bytes is the model's (log 6): 6 bytes for a BUSOP (the selector as a
little-endian halfword whose bits [15:11] are zero, then the data word in the byte lanes of R47), 4 bytes for a CMD32. -/

namespace Sys2Proof

/-! ### Selector fields (R59) -/

/-- W, bit [10]: 0 read, 1 write. -/
def selWrite (sel : BitVec 11) : Bool := sel.getLsbD 10

/-- SZ, bits [9:8]: 0 byte, 1 halfword, 2 word, 3 reserved. -/
def selSize (sel : BitVec 11) : BitVec 2 := sel.extractLsb' 8 2

/-- OFF, bits [7:0]. -/
def selOff (sel : BitVec 11) : BitVec 8 := sel.extractLsb' 0 8

/-- `sel = {W, SZ, OFF}` (R59). -/
def mkSel (write : Bool) (size : BitVec 2) (off : BitVec 8) : BitVec 11 := BitVec.ofBool write ++ size ++ off

/-- `legal(off, size)` of spec/20_memory.md R48 on a selector. -/
def selLegal (sel : BitVec 11) : Bool := selSize sel == 2#2 && (selOff sel).toNat % 4 == 0

/-! ### BUSOP (R60, R61) -/

/-- The slot index `j = OFF[5:2]` (R60). -/
def slotOf (off : BitVec 8) : Slot := ⟨off.toNat / 4 % 16, Nat.mod_lt _ (by decide)⟩

/-- The symbol map index `n = OFF[2]` (R60). -/
def mapIndexOf (off : BitVec 8) : Fin 2 := ⟨off.toNat / 4 % 2, Nat.mod_lt _ (by decide)⟩

/-- The column W = 0 of R60's table, for an aligned offset. -/
def decodeRead (off : BitVec 8) : Instr :=
  if off.toNat < 0x40 then
    match off.toNat / 4 with
    | 0 => .rdId
    | 1 => .rdVersion
    | 2 => .rdCtrl
    | 3 => .rdWoCmd
    | 4 => .rdStatus
    | 5 => .rdIrqEn
    | 6 => .rdIrqStat
    | 7 => .rdWinLen
    | 8 => .rdWinStep
    | 9 => .rdDbGuard
    | 10 => .rdThresh
    | 11 => .rdRatio
    | 12 => .rdWoSample
    | 13 => .rdResult
    | 14 => .rdSampleCnt
    | _ => .rdWinCnt
  else if off.toNat < 0x80 then .rdCoef (slotOf off)
  else if off.toNat < 0xC0 then .rdPower (slotOf off)
  else if off.toNat < 0xC8 then .rdSymmap (mapIndexOf off)
  else if off.toNat < 0xD0 then .rdRsvdC8 off
  else if off.toNat < 0xE0 then .rdRsvdD0 off
  else .rdRsvdE0 off

/-- The column W = 1 of R60's table, for an aligned offset. -/
def decodeWrite (off : BitVec 8) (data : Word) : Instr :=
  if off.toNat < 0x40 then
    match off.toNat / 4 with
    | 0 => .wrRoIdVersion off data
    | 1 => .wrRoIdVersion off data
    | 2 => .wrCtrl data
    | 3 => .wrCmd data
    | 4 => .wrStatus data
    | 5 => .wrIrqEn data
    | 6 => .wrIrqStat data
    | 7 => .wrWinLen data
    | 8 => .wrWinStep data
    | 9 => .wrDbGuard data
    | 10 => .wrThresh data
    | 11 => .wrRatio data
    | 12 => .wrSample data
    | 13 => .wrRoResult data
    | 14 => .wrRoCounters off data
    | _ => .wrRoCounters off data
  else if off.toNat < 0x80 then .wrCoef (slotOf off) data
  else if off.toNat < 0xC0 then .wrRoPower (slotOf off) data
  else if off.toNat < 0xC8 then .wrSymmap (mapIndexOf off) data
  else if off.toNat < 0xD0 then .wrRsvdC8 off data
  else if off.toNat < 0xE0 then .wrRsvdD0 off data
  else .wrRsvdE0 off data

/-- A BUSOP: first the legality check, then W and OFF (R60). Every selector has exactly one instruction. -/
def decodeBusop (sel : BitVec 11) (data : Word) : Instr :=
  let off := selOff sel
  match (selSize sel).toNat with
  | 0 => .badAccessSz0 (selWrite sel) off
  | 1 => .badAccessSz1 (selWrite sel) off
  | 2 =>
    if off.toNat % 2 = 1 then .badAccessOdd (selWrite sel) off
    else if off.toNat % 4 = 2 then .badAccessHalf (selWrite sel) off
    else if selWrite sel then decodeWrite off data
    else decodeRead off
  | _ => .badAccessSz3 (selWrite sel) off

/-! ### CMD32 (R62-R64) -/

/-- "A word selects the command iff it equals the whole 32-bit word in the table" (R63); every other word is CMD_INVALID
(R64). -/
def decodeCommand (word : Word) : Command :=
  match word.toNat with
  | 0 => .nop
  | 1 => .startScan
  | 2 => .startOneshot
  | 3 => .endStream
  | 4 => .abort
  | 5 => .flush
  | 6 => .softReset
  | _ => .invalid word

/-- The CMD32 row a word selects. -/
def decodeCmd32 (word : Word) : Instr := (decodeCommand word).instr

/-- The decoder on the two formats. -/
def decode : Code → Instr
  | .busop sel data => decodeBusop sel data
  | .cmd32 word => decodeCmd32 word

/-! ### Bytes (log 6) -/

/-- Why a byte string is no instruction. -/
inductive DecodeReject where
  /-- The string has the length of neither format (R58: both formats are fixed-width). -/
  | length (bytes : Nat)
  /-- The selector halfword of a BUSOP has a bit above [10] set (R59). -/
  | selectorPadding
  deriving DecidableEq, Repr

/-- The code a byte string holds. -/
def codeOfBytes : List Byte → Except DecodeReject Code
  | [s0, s1, d0, d1, d2, d3] =>
    if s1.toNat < 8 then .ok (.busop (s1.extractLsb' 0 3 ++ s0) (d3 ++ d2 ++ d1 ++ d0)) else .error .selectorPadding
  | [c0, c1, c2, c3] => .ok (.cmd32 (c3 ++ c2 ++ c1 ++ c0))
  | bytes => .error (.length bytes.length)

/-- The decoder on any bytes: an instruction, or a rejection by name. -/
def decodeBytes (bytes : List Byte) : Except DecodeReject Instr :=
  match codeOfBytes bytes with
  | .ok c => .ok (decode c)
  | .error r => .error r

/-- The low `k` bytes of `w`, the lowest first. -/
def bytesLE : Nat → Nat → List Byte
  | 0, _ => []
  | k + 1, w => BitVec.ofNat 8 w :: bytesLE k (w / 256)

/-- The bytes of an instruction whose bits are `w`, numbered as the opcode table numbers them: a CMD32 word has 32 bits; any
other width is a BUSOP, whose bits above `nbits` are zero. -/
def bytesOfTableWord (nbits w : Nat) : List Byte := if nbits = 32 then bytesLE 4 w else bytesLE 6 w

/-- The code of a table word, `none` where the bits do not fit the format. -/
def codeOfTableWord (nbits w : Nat) : Option Code :=
  if w < 2 ^ nbits ∧ nbits ≤ 48 then
    match codeOfBytes (bytesOfTableWord nbits w) with
    | .ok c => some c
    | .error _ => none
  else none

/-- The instruction the decoder reads from a table word. -/
def decodeTableWord (nbits w : Nat) : Option Instr := (codeOfTableWord nbits w).map decode

/-! ### The encoder, from R59-R63 and the offsets of spec/10_state.md -/

/-- A word access at an offset: SZ = 2 (R59). -/
def encodeRead (off : BitVec 8) : Code := .busop (mkSel false 2#2 off) 0#32

/-- A word write at an offset. -/
def encodeWrite (off : BitVec 8) (data : Word) : Code := .busop (mkSel true 2#2 off) data

/-- An access of any size, with no data (BAD_ACCESS takes no operand from the data word, R73; log 8). -/
def encodeBad (write : Bool) (size : BitVec 2) (off : BitVec 8) : Code := .busop (mkSel write size off) 0#32

/-- `base + 4 * j` (R60). -/
def offsetAt (base j : Nat) : BitVec 8 := BitVec.ofNat 8 (base + 4 * j)

/-- The words of an instruction. -/
def encode : Instr → Code
  | .rdId => encodeRead 0x00#8
  | .rdVersion => encodeRead 0x04#8
  | .rdCtrl => encodeRead 0x08#8
  | .rdWoCmd => encodeRead 0x0C#8
  | .rdStatus => encodeRead 0x10#8
  | .rdIrqEn => encodeRead 0x14#8
  | .rdIrqStat => encodeRead 0x18#8
  | .rdWinLen => encodeRead 0x1C#8
  | .rdWinStep => encodeRead 0x20#8
  | .rdDbGuard => encodeRead 0x24#8
  | .rdThresh => encodeRead 0x28#8
  | .rdRatio => encodeRead 0x2C#8
  | .rdWoSample => encodeRead 0x30#8
  | .rdResult => encodeRead 0x34#8
  | .rdSampleCnt => encodeRead 0x38#8
  | .rdWinCnt => encodeRead 0x3C#8
  | .rdCoef j => encodeRead (offsetAt 0x40 j)
  | .rdPower j => encodeRead (offsetAt 0x80 j)
  | .rdSymmap n => encodeRead (offsetAt 0xC0 n)
  | .rdRsvdC8 off => encodeRead off
  | .rdRsvdD0 off => encodeRead off
  | .rdRsvdE0 off => encodeRead off
  | .wrRoIdVersion off data => encodeWrite off data
  | .wrCtrl data => encodeWrite 0x08#8 data
  | .wrCmd data => encodeWrite 0x0C#8 data
  | .wrStatus data => encodeWrite 0x10#8 data
  | .wrIrqEn data => encodeWrite 0x14#8 data
  | .wrIrqStat data => encodeWrite 0x18#8 data
  | .wrWinLen data => encodeWrite 0x1C#8 data
  | .wrWinStep data => encodeWrite 0x20#8 data
  | .wrDbGuard data => encodeWrite 0x24#8 data
  | .wrThresh data => encodeWrite 0x28#8 data
  | .wrRatio data => encodeWrite 0x2C#8 data
  | .wrSample data => encodeWrite 0x30#8 data
  | .wrRoResult data => encodeWrite 0x34#8 data
  | .wrRoCounters off data => encodeWrite off data
  | .wrCoef j data => encodeWrite (offsetAt 0x40 j) data
  | .wrRoPower j data => encodeWrite (offsetAt 0x80 j) data
  | .wrSymmap n data => encodeWrite (offsetAt 0xC0 n) data
  | .wrRsvdC8 off data => encodeWrite off data
  | .wrRsvdD0 off data => encodeWrite off data
  | .wrRsvdE0 off data => encodeWrite off data
  | .badAccessSz0 write off => encodeBad write 0#2 off
  | .badAccessSz1 write off => encodeBad write 1#2 off
  | .badAccessSz3 write off => encodeBad write 3#2 off
  | .badAccessOdd write off => encodeBad write 2#2 off
  | .badAccessHalf write off => encodeBad write 2#2 off
  | .nop => .cmd32 0x00000000#32
  | .startScan => .cmd32 0x00000001#32
  | .startOneshot => .cmd32 0x00000002#32
  | .endStream => .cmd32 0x00000003#32
  | .abort => .cmd32 0x00000004#32
  | .flush => .cmd32 0x00000005#32
  | .softReset => .cmd32 0x00000006#32
  | .cmdInvalid word => .cmd32 word

/-! ### The opcode table (spec/opcode_table.json): its BUSOP rows, match and mask -/

/-- A BUSOP row: a selector belongs to it iff `sel AND mask = match`. -/
structure Row where
  mnemonic : String
  value : BitVec 11
  mask : BitVec 11
  deriving DecidableEq, Repr

/-- The selector belongs to the row. -/
def Row.covers (r : Row) (sel : BitVec 11) : Bool := sel &&& r.mask == r.value

/-- The mnemonic of an instruction's row. -/
def Instr.mnemonic : Instr → String
  | .rdId => "RD_ID"
  | .rdVersion => "RD_VERSION"
  | .rdCtrl => "RD_CTRL"
  | .rdWoCmd => "RD_WO_CMD"
  | .rdStatus => "RD_STATUS"
  | .rdIrqEn => "RD_IRQ_EN"
  | .rdIrqStat => "RD_IRQ_STAT"
  | .rdWinLen => "RD_WIN_LEN"
  | .rdWinStep => "RD_WIN_STEP"
  | .rdDbGuard => "RD_DB_GUARD"
  | .rdThresh => "RD_THRESH"
  | .rdRatio => "RD_RATIO"
  | .rdWoSample => "RD_WO_SAMPLE"
  | .rdResult => "RD_RESULT"
  | .rdSampleCnt => "RD_SAMPLE_CNT"
  | .rdWinCnt => "RD_WIN_CNT"
  | .rdCoef _ => "RD_COEF"
  | .rdPower _ => "RD_POWER"
  | .rdSymmap _ => "RD_SYMMAP"
  | .rdRsvdC8 _ => "RD_RSVD_C8"
  | .rdRsvdD0 _ => "RD_RSVD_D0"
  | .rdRsvdE0 _ => "RD_RSVD_E0"
  | .wrRoIdVersion _ _ => "WR_RO_ID_VERSION"
  | .wrCtrl _ => "WR_CTRL"
  | .wrCmd _ => "WR_CMD"
  | .wrStatus _ => "WR_STATUS"
  | .wrIrqEn _ => "WR_IRQ_EN"
  | .wrIrqStat _ => "WR_IRQ_STAT"
  | .wrWinLen _ => "WR_WIN_LEN"
  | .wrWinStep _ => "WR_WIN_STEP"
  | .wrDbGuard _ => "WR_DB_GUARD"
  | .wrThresh _ => "WR_THRESH"
  | .wrRatio _ => "WR_RATIO"
  | .wrSample _ => "WR_SAMPLE"
  | .wrRoResult _ => "WR_RO_RESULT"
  | .wrRoCounters _ _ => "WR_RO_COUNTERS"
  | .wrCoef _ _ => "WR_COEF"
  | .wrRoPower _ _ => "WR_RO_POWER"
  | .wrSymmap _ _ => "WR_SYMMAP"
  | .wrRsvdC8 _ _ => "WR_RSVD_C8"
  | .wrRsvdD0 _ _ => "WR_RSVD_D0"
  | .wrRsvdE0 _ _ => "WR_RSVD_E0"
  | .badAccessSz0 _ _ => "BAD_ACCESS_SZ0"
  | .badAccessSz1 _ _ => "BAD_ACCESS_SZ1"
  | .badAccessSz3 _ _ => "BAD_ACCESS_SZ3"
  | .badAccessOdd _ _ => "BAD_ACCESS_ODD"
  | .badAccessHalf _ _ => "BAD_ACCESS_HALF"
  | .nop => "NOP"
  | .startScan => "START_SCAN"
  | .startOneshot => "START_ONESHOT"
  | .endStream => "END_STREAM"
  | .abort => "ABORT"
  | .flush => "FLUSH"
  | .softReset => "SOFT_RESET"
  | .cmdInvalid _ => "CMD_INVALID"

/-- The BUSOP rows, the reads. -/
def readRows : List Row := [
  ⟨"RD_ID", 0x200#11, 0x7FF#11⟩,
  ⟨"RD_VERSION", 0x204#11, 0x7FF#11⟩,
  ⟨"RD_CTRL", 0x208#11, 0x7FF#11⟩,
  ⟨"RD_WO_CMD", 0x20C#11, 0x7FF#11⟩,
  ⟨"RD_STATUS", 0x210#11, 0x7FF#11⟩,
  ⟨"RD_IRQ_EN", 0x214#11, 0x7FF#11⟩,
  ⟨"RD_IRQ_STAT", 0x218#11, 0x7FF#11⟩,
  ⟨"RD_WIN_LEN", 0x21C#11, 0x7FF#11⟩,
  ⟨"RD_WIN_STEP", 0x220#11, 0x7FF#11⟩,
  ⟨"RD_DB_GUARD", 0x224#11, 0x7FF#11⟩,
  ⟨"RD_THRESH", 0x228#11, 0x7FF#11⟩,
  ⟨"RD_RATIO", 0x22C#11, 0x7FF#11⟩,
  ⟨"RD_WO_SAMPLE", 0x230#11, 0x7FF#11⟩,
  ⟨"RD_RESULT", 0x234#11, 0x7FF#11⟩,
  ⟨"RD_SAMPLE_CNT", 0x238#11, 0x7FF#11⟩,
  ⟨"RD_WIN_CNT", 0x23C#11, 0x7FF#11⟩,
  ⟨"RD_COEF", 0x240#11, 0x7C3#11⟩,
  ⟨"RD_POWER", 0x280#11, 0x7C3#11⟩,
  ⟨"RD_SYMMAP", 0x2C0#11, 0x7FB#11⟩,
  ⟨"RD_RSVD_C8", 0x2C8#11, 0x7FB#11⟩,
  ⟨"RD_RSVD_D0", 0x2D0#11, 0x7F3#11⟩,
  ⟨"RD_RSVD_E0", 0x2E0#11, 0x7E3#11⟩]

/-- The BUSOP rows, the writes. -/
def writeRows : List Row := [
  ⟨"WR_RO_ID_VERSION", 0x600#11, 0x7FB#11⟩,
  ⟨"WR_CTRL", 0x608#11, 0x7FF#11⟩,
  ⟨"WR_CMD", 0x60C#11, 0x7FF#11⟩,
  ⟨"WR_STATUS", 0x610#11, 0x7FF#11⟩,
  ⟨"WR_IRQ_EN", 0x614#11, 0x7FF#11⟩,
  ⟨"WR_IRQ_STAT", 0x618#11, 0x7FF#11⟩,
  ⟨"WR_WIN_LEN", 0x61C#11, 0x7FF#11⟩,
  ⟨"WR_WIN_STEP", 0x620#11, 0x7FF#11⟩,
  ⟨"WR_DB_GUARD", 0x624#11, 0x7FF#11⟩,
  ⟨"WR_THRESH", 0x628#11, 0x7FF#11⟩,
  ⟨"WR_RATIO", 0x62C#11, 0x7FF#11⟩,
  ⟨"WR_SAMPLE", 0x630#11, 0x7FF#11⟩,
  ⟨"WR_RO_RESULT", 0x634#11, 0x7FF#11⟩,
  ⟨"WR_RO_COUNTERS", 0x638#11, 0x7FB#11⟩,
  ⟨"WR_COEF", 0x640#11, 0x7C3#11⟩,
  ⟨"WR_RO_POWER", 0x680#11, 0x7C3#11⟩,
  ⟨"WR_SYMMAP", 0x6C0#11, 0x7FB#11⟩,
  ⟨"WR_RSVD_C8", 0x6C8#11, 0x7FB#11⟩,
  ⟨"WR_RSVD_D0", 0x6D0#11, 0x7F3#11⟩,
  ⟨"WR_RSVD_E0", 0x6E0#11, 0x7E3#11⟩]

/-- The BUSOP rows of BAD_ACCESS (R61). -/
def badRows : List Row := [
  ⟨"BAD_ACCESS_SZ0", 0x000#11, 0x300#11⟩,
  ⟨"BAD_ACCESS_SZ1", 0x100#11, 0x300#11⟩,
  ⟨"BAD_ACCESS_SZ3", 0x300#11, 0x300#11⟩,
  ⟨"BAD_ACCESS_ODD", 0x201#11, 0x301#11⟩,
  ⟨"BAD_ACCESS_HALF", 0x202#11, 0x303#11⟩]

/-- The 47 BUSOP rows. -/
def busopRows : List Row := readRows ++ writeRows ++ badRows

/-- The bytes of a code (log 6), the inverse of `codeOfBytes`. -/
def Code.bytes : Code → List Byte
  | .busop sel data =>
    [sel.extractLsb' 0 8, 0#5 ++ sel.extractLsb' 8 3,
     data.extractLsb' 0 8, data.extractLsb' 8 8, data.extractLsb' 16 8, data.extractLsb' 24 8]
  | .cmd32 word => [word.extractLsb' 0 8, word.extractLsb' 8 8, word.extractLsb' 16 8, word.extractLsb' 24 8]

end Sys2Proof
end

