-- ==== Sys2Proof/Config.lean ====
section
/-! DEFINITION. What is fixed for a machine (spec/00_scope.md R6, R7): the parameters and their values for this hardware,
the constant registers, the OPEN base address and the one free draw. -/

namespace Sys2Proof

/-- The parameters a model takes (spec/00_scope.md R6). `State` carries them and no operation writes them, so that a test
configuration ("A test configuration may give WIN_MIN and WIN_MAX other values") is a state too (log 5). -/
structure Params where
  /-- WIN_MIN, the smallest WIN_LEN a run may start with, in samples. -/
  winMin : Nat
  /-- WIN_MAX, the largest WIN_LEN a run may start with, in samples. -/
  winMax : Nat
  /-- RFIFO_DEPTH, the capacity of the result FIFO in words, legal 1..31. -/
  rfifoDepth : Nat
  deriving DecidableEq, Repr

/-- FS_HZ, "a fixed sample rate (44,100 Hz nominal)"; used only to derive WIN_MIN and WIN_MAX (R6). -/
def Config.fsHz : Nat := 44100

/-- The values of the parameters for this hardware (R6): WIN_MIN = ceil(0.050 * FS_HZ), WIN_MAX = floor(0.100 * FS_HZ). -/
def Config.params : Params where
  winMin := 2205
  winMax := 4410
  rfifoDepth := 16

/-- The legal range of the parameters (R6: "legal range 1..31"; spec/93_implementation_defined.md U3: a configuration with
WIN_MIN = 0 would admit an empty window, which R120's "S >= 1" excludes; log 5). -/
abbrev Params.Legal (p : Params) : Prop :=
  1 ≤ p.rfifoDepth ∧ p.rfifoDepth ≤ 31 ∧ 1 ≤ p.winMin ∧ p.winMax < 2 ^ 16

/-- ID always reads 0x544F4E44 (spec/10_state.md R19). -/
def Config.idWord : Word := 0x544F4E44#32

/-- VERSION always reads 0x00010000 (spec/10_state.md R20). -/
def Config.versionWord : Word := 0x00010000#32

/-- BASE_ADDR, the byte address of offset 0x00 on the host bus: OPEN (R6, spec/93_implementation_defined.md U1), so a
constant without a body; nothing rests on its value. DESIGN CHOICE: a host bus address has 32 bits; the spec gives the register
and data width (R7) and no address width (log 12). -/
opaque Config.baseAddr : BitVec 32

/-- The platform's decision whether an operation in flight when `rst` is asserted completes before the reset (`true`) or is
dropped (spec/70_reset_and_hazards.md R176, spec/93_implementation_defined.md U5: a draw). A FREE VALUE: no body, applied to
the counter `State.draws` (log 3). -/
opaque Config.inFlightCompletes : Nat → Bool

end Sys2Proof
end

