-- ==== Sys2Proof/Machine/State.lean ====
section
/-! DEFINITION. The state of the block (spec/10_state.md R17), its reset (spec/70_reset_and_hazards.md R177), the host side of
a run, and the reasons a step can stop. -/

namespace Sys2Proof.Machine

/-- The control state STATE (spec/10_state.md R18). -/
inductive Stage where
  /-- 0: no run; samples are refused; configuration writable. -/
  | idle
  /-- 1: a stream scan is running. -/
  | scan
  /-- 2: one window is being collected. -/
  | oneshot
  /-- 3: a run has ended by END_STREAM or ONESHOT completion. -/
  | done
  deriving DecidableEq, Repr

/-- The 2-bit value of STATE, STATUS[1:0] (R18). -/
def Stage.code : Stage → BitVec 2
  | .idle => 0#2
  | .scan => 1#2
  | .oneshot => 2#2
  | .done => 3#2

/-- STATE in {SCAN, ONESHOT} (spec/40_register_access.md R72). -/
def Stage.running : Stage → Bool
  | .scan | .oneshot => true
  | .idle | .done => false

/-- The configuration registers, all locked while running (spec/10_state.md R21, R26-R30, R35, R37). Reserved bits read as
zero and ignore writes, so a register is as wide as its writable field. -/
structure Regs where
  /-- CTRL[7:0]: MODE [1:0], GATE [2], DB_EN [3], TONE_SEL [7:4]. -/
  ctrl : BitVec 8
  /-- WIN_LEN[15:0]. -/
  winLen : BitVec 16
  /-- WIN_STEP[15:0]. -/
  winStep : BitVec 16
  /-- DB_GUARD. -/
  dbGuard : Word
  /-- THRESH, a binary32 pattern. -/
  thresh : Word
  /-- RATIO, a binary32 pattern. -/
  ratio : Word
  /-- COEF[0..15], binary32 patterns. -/
  coef : Bank
  /-- SYMMAP0, entries 0..7. -/
  symmap0 : Word
  /-- SYMMAP1, entries 8..15. -/
  symmap1 : Word
  deriving DecidableEq, Repr

/-- The hidden run state (spec/10_state.md R39-R42). -/
structure Run where
  /-- `i`: samples absorbed since the last successful START. -/
  index : Nat
  /-- The samples kept, oldest first: those of windows that are not complete (spec/42_sample_path.md R119; log 10). -/
  samples : List Word
  /-- `wcount`: windows completed since the last successful START. -/
  wcount : Nat
  /-- `db_valid`: a detection has occurred in this run. -/
  dbValid : Bool
  /-- `db_last`: the VALUE of the last detection. -/
  dbLast : BitVec 4
  /-- `db_pos`: the start index of the window of the last detection. -/
  dbPos : Nat
  /-- `db_gap`: a no-detection window has been completed since the last detection. -/
  dbGap : Bool
  /-- `acc`: some window of the run was classified as a detection. -/
  acc : Bool
  deriving DecidableEq, Repr

/-- The complete state of the block (spec/10_state.md R17). -/
structure Block where
  /-- STATE. -/
  stage : Stage
  /-- The configuration registers. -/
  cfg : Regs
  /-- IRQ_EN[2:0]: RES_IE, DONE_IE, ERR_IE (R24). -/
  irqEn : BitVec 3
  /-- IRQ_STAT[2:0]: RES, DONE, ERR (R25). -/
  irqStat : BitVec 3
  /-- STATUS[13:8]: OVF, CFGERR, WERR, SERR, CMDERR, NANSEEN (R23, R43). -/
  sticky : BitVec 6
  /-- The result FIFO, oldest first (R38). -/
  fifo : List Word
  /-- POWER[0..15], binary32 patterns (R36). -/
  power : Bank
  /-- The hidden run state. -/
  run : Run
  deriving DecidableEq, Repr

/-- A pending host operation: the block's input (log 1). -/
inductive HostOp where
  /-- One bus operation (spec/30_encoding.md R59). -/
  | busop (sel : BitVec 11) (data : Word)
  /-- `rst` asserted between bus operations (spec/70_reset_and_hazards.md R176). -/
  | rst
  /-- `rst` asserted while this bus operation is in flight (R176, spec/93_implementation_defined.md U5; log 3). -/
  | rstInFlight (sel : BitVec 11) (data : Word)
  deriving DecidableEq, Repr

/-- What the bus master got from the last host operation (spec/40_register_access.md R71-R73; log 2). -/
inductive BusResp where
  /-- No response: nothing was issued yet, or the last input was `rst`. -/
  | none
  /-- A read completed with this word. -/
  | data (w : Word)
  /-- A write completed. -/
  | written
  /-- The bus error response `BusError(off)` (R73, R155). -/
  | busError (off : BitVec 8)
  deriving DecidableEq, Repr

/-- The machine: the block, its parameters, and the host side of the run. -/
structure State where
  /-- The block's own state. -/
  blk : Block
  /-- The parameters of this machine (spec/00_scope.md R6), written by no operation (log 5). -/
  par : Params
  /-- The pending host operations, the next one first: the model's own field (log 1). -/
  host : List HostOp
  /-- The last bus response: the model's own field (log 2). -/
  resp : BusResp
  /-- How many free draws of `Config.inFlightCompletes` have been used: the model's own field (log 3). -/
  draws : Nat
  deriving DecidableEq, Repr

/-- Why a step faults. -/
inductive Fault where
  /-- Raised by WR_SAMPLE when a window completes in a run with CTRL.MODE = 3. The spec gives no classifier for it: "MODE = 3
  cannot occur in a run" (spec/42_sample_path.md R125). Safe: the model stops, and no state that a run reaches raises it
  (log 4). -/
  | modeInvalidInRun
  deriving DecidableEq, Repr

/-- Why a step is refused. -/
inductive Refusal where
  /-- Raised by an arm of `exec` for an instruction that has no meaning yet. Safe: nothing can be proved of its effect. No arm
  raises it. -/
  | notModelled (mnemonic : String)
  deriving DecidableEq, Repr

/-- What a meaning answers. -/
abbrev Out := Host.Outcome State Fault Refusal

/-! ### Reset (R177) -/

/-- A bank of sixteen +0.0. -/
def zeroBank : Bank := ⟨(List.replicate 16 0#32).toArray, rfl⟩

/-- The configuration registers after reset (R177). -/
def Regs.reset : Regs where
  ctrl := 0x08#8
  winLen := 2205#16
  winStep := 2205#16
  dbGuard := 2205#32
  thresh := 0x7F800000#32
  ratio := 0x7F800000#32
  coef := zeroBank
  symmap0 := 0x76543210#32
  symmap1 := 0xFEDCBA98#32

/-- The run state after reset, and after a successful START (R177, spec/41_commands.md R105). -/
def Run.init : Run where
  index := 0
  samples := []
  wcount := 0
  dbValid := false
  dbLast := 0#4
  dbPos := 0
  dbGap := false
  acc := false

/-- The block after reset (R177). -/
def Block.reset : Block where
  stage := .idle
  cfg := Regs.reset
  irqEn := 0#3
  irqStat := 0#3
  sticky := 0#6
  fifo := []
  power := zeroBank
  run := Run.init

/-- The machine right after reset: the block at R177's values, this hardware's parameters, no pending host operation. -/
def State.reset : State where
  blk := Block.reset
  par := Config.params
  host := []
  resp := .none
  draws := 0

/-! ### Named updates -/

/-- Replace the block. -/
def State.setBlk (s : State) (b : Block) : State := { s with blk := b }

/-- Record a bus response. -/
def State.setResp (s : State) (r : BusResp) : State := { s with resp := r }

/-- Replace the pending host operations. -/
def State.setHost (s : State) (h : List HostOp) : State := { s with host := h }

/-- Use one free draw. -/
def State.drawn (s : State) : State := { s with draws := s.draws + 1 }

/-- STATE <- st. -/
def Block.setStage (b : Block) (st : Stage) : Block := { b with stage := st }

/-- Replace the configuration registers. -/
def Block.setCfg (b : Block) (r : Regs) : Block := { b with cfg := r }

/-- IRQ_EN <- v. -/
def Block.setIrqEn (b : Block) (v : BitVec 3) : Block := { b with irqEn := v }

/-- IRQ_STAT <- v. -/
def Block.setIrqStat (b : Block) (v : BitVec 3) : Block := { b with irqStat := v }

/-- STATUS[13:8] <- v. -/
def Block.setSticky (b : Block) (v : BitVec 6) : Block := { b with sticky := v }

/-- FIFO <- f. -/
def Block.setFifo (b : Block) (f : List Word) : Block := { b with fifo := f }

/-- POWER <- p. -/
def Block.setPower (b : Block) (p : Bank) : Block := { b with power := p }

/-- Replace the run state. -/
def Block.setRun (b : Block) (r : Run) : Block := { b with run := r }

end Sys2Proof.Machine
end

