-- ==== Sys2Proof/Machine/Operands.lean ====
section
/-! DEFINITION. Operand assembly: the fields a write takes from its data word (spec/30_encoding.md R65), the fields of CTRL
(spec/10_state.md R21), the symbol map entries (R37) and the slot banks (R35, R36). Nothing is sign-extended (R8). -/

namespace Sys2Proof.Machine

/-! ### Fields of a data word (R65) -/

/-- WR_CTRL stores `data[7:0]`. -/
def ctrlField (data : Word) : BitVec 8 := data.extractLsb' 0 8

/-- WR_WIN_LEN and WR_WIN_STEP store `data[15:0]`. -/
def windowField (data : Word) : BitVec 16 := data.extractLsb' 0 16

/-- WR_IRQ_EN stores `data[2:0]`; WR_IRQ_STAT clears by `data[2:0]`. -/
def irqField (data : Word) : BitVec 3 := data.extractLsb' 0 3

/-- WR_STATUS clears by `data[13:8]`. -/
def stickyField (data : Word) : BitVec 6 := data.extractLsb' 8 6

/-! ### Configuration fields -/

/-- CTRL.MODE (R21). -/
inductive Mode where
  | dual
  | bin
  | tone
  | invalid
  deriving DecidableEq, Repr

/-- CTRL[1:0], MODE, as bits: the KIND field of a result word (spec/30_encoding.md R66). -/
def Regs.modeBits (r : Regs) : BitVec 2 := r.ctrl.extractLsb' 0 2

/-- MODE: 0 DUAL, 1 BIN, 2 TONE, 3 invalid (R21). -/
def Regs.mode (r : Regs) : Mode :=
  match r.modeBits.toNat with
  | 0 => .dual
  | 1 => .bin
  | 2 => .tone
  | _ => .invalid

/-- CTRL[2], GATE: false ABS, true MARGIN (R21). -/
def Regs.gateMargin (r : Regs) : Bool := r.ctrl.getLsbD 2

/-- CTRL[3], DB_EN (R21). -/
def Regs.dbEn (r : Regs) : Bool := r.ctrl.getLsbD 3

/-- CTRL[7:4], TONE_SEL (R21). -/
def Regs.toneSel (r : Regs) : Slot := (r.ctrl.extractLsb' 4 4).toFin

/-- N = WIN_LEN[15:0] (spec/42_sample_path.md, Notation). -/
def Regs.winN (r : Regs) : Nat := r.winLen.toNat

/-- S = WIN_STEP[15:0] (spec/42_sample_path.md, Notation). -/
def Regs.stepS (r : Regs) : Nat := r.winStep.toNat

/-- `SYMMAP[g]` = `SYMMAP{g div 8}[4*(g mod 8)+3 : 4*(g mod 8)]` (R37). -/
def Regs.symbol (r : Regs) (g : Nat) : BitVec 4 :=
  (if g / 8 = 0 then r.symmap0 else r.symmap1).extractLsb' (4 * (g % 8)) 4

/-- SYMMAP<n> (R97). -/
def Regs.symmap (r : Regs) (n : Fin 2) : Word := if n = 0 then r.symmap0 else r.symmap1

/-- SYMMAP<n> <- data (R98). -/
def Regs.setSymmap (r : Regs) (n : Fin 2) (data : Word) : Regs :=
  if n = 0 then { r with symmap0 := data } else { r with symmap1 := data }

/-! ### Slot banks -/

/-- Entry j of a bank. -/
def bankGet (b : Bank) (j : Slot) : Word := b.get j

/-- Entry j of a bank <- w. -/
def bankSet (b : Bank) (j : Slot) (w : Word) : Bank := b.set j w

/-- One function of every entry: the sixteen slots are independent lanes (spec/42_sample_path.md R173). -/
def bankMap (f : Word → Word) (b : Bank) : Bank := ⟨(b.toArray.toList.map f).toArray, by simp⟩

/-- Some entry satisfies `p`. -/
def bankAny (p : Word → Bool) (b : Bank) : Bool := b.toArray.toList.any p

end Sys2Proof.Machine
end

