-- ==== Sys2Proof/Machine/Flags.lean ====
section
/-! DEFINITION. Every flag computation: the sticky bits and `set_sticky` (spec/60_exceptions.md R153), the interrupt events and
the `irq` level (R156, spec/10_state.md R44), the write-one-to-clear masks (R158), and the STATUS word (spec/10_state.md R23,
spec/40_register_access.md R79). -/

namespace Sys2Proof.Machine

/-- The causes of spec/60_exceptions.md R154 that are STATUS bits; "the cause code is the STATUS bit number". -/
inductive ErrBit where
  | ovf
  | cfgerr
  | werr
  | serr
  | cmderr
  | nanseen
  deriving DecidableEq, Repr

/-- The STATUS bit number less 8: the place in `Block.sticky` (R23: OVF 8, CFGERR 9, WERR 10, SERR 11, CMDERR 12, NANSEEN 13). -/
def ErrBit.place : ErrBit → Nat
  | .ovf => 0
  | .cfgerr => 1
  | .werr => 2
  | .serr => 3
  | .cmderr => 4
  | .nanseen => 5

/-- The one-bit mask of a sticky bit. -/
def ErrBit.mask (e : ErrBit) : BitVec 6 := 1#6 <<< e.place

/-- The events of IRQ_STAT (R25, R156). -/
inductive Event where
  /-- bit 0: a result word entered the FIFO -/
  | res
  /-- bit 1: STATE entered DONE -/
  | done
  /-- bit 2: an error was raised -/
  | err
  deriving DecidableEq, Repr

/-- The IRQ_STAT bit number of an event. -/
def Event.place : Event → Nat
  | .res => 0
  | .done => 1
  | .err => 2

/-- The one-bit mask of an event. -/
def Event.mask (e : Event) : BitVec 3 := 1#3 <<< e.place

/-- IRQ_STAT.e <- 1; IRQ_STAT records an event whatever IRQ_EN holds (R156). -/
def Block.event (b : Block) (e : Event) : Block := b.setIrqStat (b.irqStat ||| e.mask)

/-- `set_sticky(F)` (R153): the STATUS bit, and IRQ_STAT.ERR for every F but NANSEEN, "every time, even if STATUS[F] was
already 1". -/
def Block.raise (b : Block) (e : ErrBit) : Block :=
  let b' := b.setSticky (b.sticky ||| e.mask)
  match e with
  | .nanseen => b'
  | .ovf | .cfgerr | .werr | .serr | .cmderr => b'.event .err

/-- `STICKY[13:8] <- STICKY[13:8] AND NOT data[13:8]` (spec/40_register_access.md R80). -/
def Block.clearSticky (b : Block) (mask : BitVec 6) : Block := b.setSticky (b.sticky &&& ~~~mask)

/-- `IRQ_STAT[2:0] <- IRQ_STAT[2:0] AND NOT data[2:0]` (spec/40_register_access.md R84). -/
def Block.clearEvents (b : Block) (mask : BitVec 3) : Block := b.setIrqStat (b.irqStat &&& ~~~mask)

/-- Whether a sticky bit is 1. -/
def Block.flag (b : Block) (e : ErrBit) : Bool := b.sticky.getLsbD e.place

/-- Whether an event bit is 1. -/
def Block.pending (b : Block) (e : Event) : Bool := b.irqStat.getLsbD e.place

/-- The `irq` output, a level: OR over b of (IRQ_STAT[b] AND IRQ_EN[b]) (spec/10_state.md R44, R157). A function of the state,
so it has its new level after every operation. -/
def Block.irq (b : Block) : Bool :=
  (b.irqStat.getLsbD 0 && b.irqEn.getLsbD 0) || (b.irqStat.getLsbD 1 && b.irqEn.getLsbD 1) ||
    (b.irqStat.getLsbD 2 && b.irqEn.getLsbD 2)

/-! ### The read-only fields of STATUS (R23, R79) -/

/-- RAVAIL: the FIFO holds at least one word. -/
def Block.ravail (b : Block) : Bool := decide (0 < b.fifo.length)

/-- RFULL: the FIFO holds RFIFO_DEPTH words. -/
def Block.rfull (b : Block) (par : Params) : Bool := decide (b.fifo.length = par.rfifoDepth)

/-- NOTONES: STATE = DONE and acc = 0. -/
def Block.notones (b : Block) : Bool := decide (b.stage = .done) && !b.run.acc

/-- RCOUNT: the number of words in the FIFO, mod 32. -/
def Block.rcount (b : Block) : BitVec 5 := BitVec.ofNat 5 b.fifo.length

/-- The STATUS word, from bit 31 down: reserved [31:21], RCOUNT [20:16], reserved [15:14], the sticky bits [13:8], reserved
[7:5], NOTONES [4], RFULL [3], RAVAIL [2], STATE [1:0] (R23). -/
def Block.status (b : Block) (par : Params) : Word :=
  0#11 ++ b.rcount ++ 0#2 ++ b.sticky ++ 0#3 ++ BitVec.ofBool b.notones ++ BitVec.ofBool (b.rfull par) ++
    BitVec.ofBool b.ravail ++ b.stage.code

end Sys2Proof.Machine
end

