-- ==== Sys2Proof/Machine/Ops.lean ====
section
/-! DEFINITION. The named operations over the machine: bus responses and the bus error (spec/40_register_access.md R71-R73),
the run lock (R72), the result FIFO (spec/42_sample_path.md R135, spec/43_result_readout.md R146), the start and the end of a
run (spec/41_commands.md R103-R105, R109, R110), reset (spec/70_reset_and_hazards.md R176), and the routing of a bus access to
a selector (spec/20_memory.md R46, spec/40_register_access.md R170). -/

namespace Sys2Proof.Machine

/-! ### Bus responses -/

/-- A read completes with a word. -/
def State.answer (s : State) (w : Word) : State := s.setResp (.data w)

/-- A write completes, the block as given. -/
def State.written (s : State) (b : Block) : State := (s.setBlk b).setResp .written

/-- `raise BusError(off)` (spec/00_scope.md R12, spec/40_register_access.md R73): the ONE exception-like outcome. The master gets
an error response; "the block's state after a bus error equals its state before" (spec/60_exceptions.md R155). There is nothing
to save, no mode to change, no handler address and no return (R160, R161). The outcome is recorded and is not final
(spec/93_implementation_defined.md U4), so it is a next state (log 2). -/
def State.busError (s : State) (off : BitVec 8) : State := s.setResp (.busError off)

/-! ### The run lock -/

/-- STATE in {SCAN, ONESHOT}. -/
def Block.running (b : Block) : Bool := b.stage.running

/-- A write to a locked register (R72): while running it sets WERR and the register keeps its value; otherwise it stores. -/
def Block.lockedWrite (b : Block) (store : Regs → Regs) : Block :=
  if b.running then b.raise .werr else b.setCfg (store b.cfg)

/-! ### The result FIFO -/

/-- `fifo_push(w)` (spec/42_sample_path.md R135): a full FIFO drops the word and sets OVF; otherwise the word goes to the tail
and IRQ_STAT.RES is set. -/
def Block.push (b : Block) (par : Params) (w : Word) : Block :=
  if b.fifo.length = par.rfifoDepth then b.raise .ovf else (b.setFifo (b.fifo ++ [w])).event .res

/-- `fifo_pop` (spec/43_result_readout.md R146): the head, 0x00000000 if the FIFO is empty. -/
def Block.popWord (b : Block) : Word :=
  match b.fifo with
  | [] => 0#32
  | w :: _ => w

/-- `fifo_pop`, the block after it: an empty FIFO has no side effect. -/
def Block.popped (b : Block) : Block := b.setFifo b.fifo.tail

/-! ### Commands -/

/-- `allowed(cmd, STATE)` (spec/41_commands.md R103). -/
def allowed (c : Command) (st : Stage) : Bool :=
  match c, st with
  | .nop, _ => true
  | .startScan, .idle => true
  | .startScan, .scan => false
  | .startScan, .oneshot => false
  | .startScan, .done => true
  | .startOneshot, .idle => true
  | .startOneshot, .scan => false
  | .startOneshot, .oneshot => false
  | .startOneshot, .done => true
  | .endStream, .idle => false
  | .endStream, .scan => true
  | .endStream, .oneshot => true
  | .endStream, .done => false
  | .abort, _ => true
  | .flush, _ => true
  | .softReset, _ => true
  | .invalid _, _ => false

/-- The state check of R102: a command not allowed in STATE sets CMDERR and changes nothing else. -/
def Block.guarded (b : Block) (c : Command) (perform : Block → Block) : Block :=
  if allowed c b.stage then perform b else b.raise .cmderr

/-- `ceil(N/4) = (N + 3) div 4` (spec/42_sample_path.md R172). -/
def quarter (n : Nat) : Nat := (n + 3) / 4

/-- `cfg_ok(kind)` (spec/41_commands.md R104); `scan` is true for kind = SCAN. -/
def cfgOk (par : Params) (scan : Bool) (r : Regs) : Bool :=
  decide (r.mode ≠ .invalid) && decide (par.winMin ≤ r.winN) && decide (r.winN ≤ par.winMax) &&
    (!scan || (decide (quarter r.winN ≤ r.stepS) && decide (r.stepS ≤ r.winN)))

/-- `run_init(st)` (spec/41_commands.md R105). -/
def Block.runInit (b : Block) (st : Stage) : Block := ((b.setFifo []).setRun Run.init).setStage st

/-- `samples <- empty`: every open window is discarded without evaluation (spec/42_sample_path.md R119). -/
def Block.discard (b : Block) : Block := b.setRun { b.run with samples := [] }

/-- A run ends in DONE: `samples <- empty; STATE <- DONE; IRQ_STAT.DONE <- 1` (spec/41_commands.md R109,
spec/42_sample_path.md R137). -/
def Block.finish (b : Block) : Block := (b.discard.setStage .done).event .done

/-! ### Reset -/

/-- Reset "sets every piece of state to the value in rule R177 and sets nothing else" (spec/70_reset_and_hazards.md R176). The
parameters and the host's side are not state of the block. -/
def State.resetBlock (s : State) : State := s.setBlk Block.reset

/-! ### Routing a bus access to a selector -/

/-- An access a bus master issues. -/
structure BusAccess where
  /-- W. -/
  write : Bool
  /-- SZ: 0 byte, 1 halfword, 2 word, 3 reserved. -/
  size : BitVec 2
  /-- The byte address on the host bus. DESIGN CHOICE: 32 bits; the spec gives no address width (log 12). -/
  addr : BitVec 32
  /-- The data word of a write. -/
  data : Word
  deriving DecidableEq, Repr

/-- `off = addr - BASE_ADDR` with `0 <= off <= 0xFF` (spec/20_memory.md R46): the host operation of an access routed to the
block, `none` for an address outside its window. DESIGN CHOICE: the subtraction is modulo 2^32, on 32-bit addresses, and an
address outside the window is no operation of the block; R46 says only what a model may take (log 12). -/
def busopOf (a : BusAccess) : Option HostOp :=
  let off := a.addr - Config.baseAddr
  if off.toNat ≤ 0xFF then some (.busop (mkSel a.write a.size (off.extractLsb' 0 8)) a.data) else none

end Sys2Proof.Machine
end

