-- ==== Sys2Proof/Machine/Commands.lean ====
section
/-! DEFINITION. The meanings of the commands and of WR_CMD (spec/41_commands.md R102-R113). A command is a plain register
write: whatever it does to the block, the bus write completes (spec/60_exceptions.md R152, R163). -/

namespace Sys2Proof.Machine

/-- NOP (R106): nothing. -/
def execNop (s : State) : Out := .next (s.written (s.blk.guarded .nop fun b => b))

/-- START_SCAN (R107). -/
def execStartScan (s : State) : Out :=
  .next (s.written (s.blk.guarded .startScan fun b =>
    if cfgOk s.par true b.cfg then b.runInit .scan else b.raise .cfgerr))

/-- START_ONESHOT (R108). -/
def execStartOneshot (s : State) : Out :=
  .next (s.written (s.blk.guarded .startOneshot fun b =>
    if cfgOk s.par false b.cfg then b.runInit .oneshot else b.raise .cfgerr))

/-- END_STREAM (R109). -/
def execEndStream (s : State) : Out := .next (s.written (s.blk.guarded .endStream Block.finish))

/-- ABORT (R110): open windows discarded, STATE <- IDLE, no flag. -/
def execAbort (s : State) : Out := .next (s.written (s.blk.guarded .abort fun b => b.discard.setStage .idle))

/-- FLUSH (R111). -/
def execFlush (s : State) : Out := .next (s.written (s.blk.guarded .flush fun b => b.setFifo []))

/-- SOFT_RESET (R112): the reset of R176; "the bus write itself completes normally". -/
def execSoftReset (s : State) : Out := .next (s.resetBlock.setResp .written)

/-- CMD_INVALID (R113): CMDERR, in every STATE. -/
def execCmdInvalid (_word : Word) (s : State) : Out := .next (s.written (s.blk.raise .cmderr))

/-- WR_CMD (R102): decodes its data as CMD32 and performs the command, which checks STATE first. -/
def execWrCmd (data : Word) (s : State) : Out :=
  match decodeCommand data with
  | .nop => execNop s
  | .startScan => execStartScan s
  | .startOneshot => execStartOneshot s
  | .endStream => execEndStream s
  | .abort => execAbort s
  | .flush => execFlush s
  | .softReset => execSoftReset s
  | .invalid word => execCmdInvalid word s

end Sys2Proof.Machine
end

