-- ==== Sys2Proof/Machine/Readout.lean ====
section
/-! DEFINITION. The result read-out operations (spec/43_result_readout.md R146-R149). -/

namespace Sys2Proof.Machine

/-- RD_RESULT (R146): returns and removes the FIFO's oldest word; an empty FIFO reads 0x00000000 with no side effect. -/
def execRdResult (s : State) : Out := .next ((s.setBlk s.blk.popped).answer s.blk.popWord)

/-- RD_POWER[j] (R147). -/
def execRdPower (j : Slot) (s : State) : Out := .next (s.answer (bankGet s.blk.power j))

/-- RD_SAMPLE_CNT (R148): `i mod 2^32`. -/
def execRdSampleCnt (s : State) : Out := .next (s.answer (BitVec.ofNat 32 s.blk.run.index))

/-- RD_WIN_CNT (R149): `wcount mod 2^32`. -/
def execRdWinCnt (s : State) : Out := .next (s.answer (BitVec.ofNat 32 s.blk.run.wcount))

end Sys2Proof.Machine
end

