-- ==== Sys2Proof/Machine/RegAccess.lean ====
section
/-! DEFINITION. The meanings of the register access operations (spec/40_register_access.md R73-R101), one definition per row
of the opcode table. -/

namespace Sys2Proof.Machine

/-! ### Identity -/

/-- RD_ID (R74). -/
def execRdId (s : State) : Out := .next (s.answer Config.idWord)

/-- RD_VERSION (R75). -/
def execRdVersion (s : State) : Out := .next (s.answer Config.versionWord)

/-! ### Control -/

/-- RD_CTRL (R76). -/
def execRdCtrl (s : State) : Out := .next (s.answer (s.blk.cfg.ctrl.setWidth 32))

/-- WR_CTRL (R77). -/
def execWrCtrl (data : Word) (s : State) : Out :=
  .next (s.written (s.blk.lockedWrite fun r => { r with ctrl := ctrlField data }))

/-- RD_WO at CMD (R78): issues no command. -/
def execRdWoCmd (s : State) : Out := .next (s.answer 0#32)

/-- RD_WO at SAMPLE (R78): neither consumes nor returns a sample. -/
def execRdWoSample (s : State) : Out := .next (s.answer 0#32)

/-! ### Status and interrupts -/

/-- RD_STATUS (R79). -/
def execRdStatus (s : State) : Out := .next (s.answer (s.blk.status s.par))

/-- WR_STATUS (R80). -/
def execWrStatus (data : Word) (s : State) : Out := .next (s.written (s.blk.clearSticky (stickyField data)))

/-- RD_IRQ_EN (R81). -/
def execRdIrqEn (s : State) : Out := .next (s.answer (s.blk.irqEn.setWidth 32))

/-- WR_IRQ_EN (R82): never locked. -/
def execWrIrqEn (data : Word) (s : State) : Out := .next (s.written (s.blk.setIrqEn (irqField data)))

/-- RD_IRQ_STAT (R83): reading does not acknowledge. -/
def execRdIrqStat (s : State) : Out := .next (s.answer (s.blk.irqStat.setWidth 32))

/-- WR_IRQ_STAT (R84). -/
def execWrIrqStat (data : Word) (s : State) : Out := .next (s.written (s.blk.clearEvents (irqField data)))

/-! ### Window configuration -/

/-- RD_WIN_LEN (R85). -/
def execRdWinLen (s : State) : Out := .next (s.answer (s.blk.cfg.winLen.setWidth 32))

/-- WR_WIN_LEN (R86): every value is stored; START checks the range. -/
def execWrWinLen (data : Word) (s : State) : Out :=
  .next (s.written (s.blk.lockedWrite fun r => { r with winLen := windowField data }))

/-- RD_WIN_STEP (R87). -/
def execRdWinStep (s : State) : Out := .next (s.answer (s.blk.cfg.winStep.setWidth 32))

/-- WR_WIN_STEP (R88): stored unchecked. -/
def execWrWinStep (data : Word) (s : State) : Out :=
  .next (s.written (s.blk.lockedWrite fun r => { r with winStep := windowField data }))

/-- RD_DB_GUARD (R89). -/
def execRdDbGuard (s : State) : Out := .next (s.answer s.blk.cfg.dbGuard)

/-- WR_DB_GUARD (R90). -/
def execWrDbGuard (data : Word) (s : State) : Out :=
  .next (s.written (s.blk.lockedWrite fun r => { r with dbGuard := data }))

/-! ### Thresholds -/

/-- RD_THRESH (R91). -/
def execRdThresh (s : State) : Out := .next (s.answer s.blk.cfg.thresh)

/-- WR_THRESH (R92): a NaN pattern is stored as written. -/
def execWrThresh (data : Word) (s : State) : Out :=
  .next (s.written (s.blk.lockedWrite fun r => { r with thresh := data }))

/-- RD_RATIO (R93). -/
def execRdRatio (s : State) : Out := .next (s.answer s.blk.cfg.ratio)

/-- WR_RATIO (R94). -/
def execWrRatio (data : Word) (s : State) : Out :=
  .next (s.written (s.blk.lockedWrite fun r => { r with ratio := data }))

/-! ### Slot banks and symbol map -/

/-- RD_COEF (R95). -/
def execRdCoef (j : Slot) (s : State) : Out := .next (s.answer (bankGet s.blk.cfg.coef j))

/-- WR_COEF (R96). -/
def execWrCoef (j : Slot) (data : Word) (s : State) : Out :=
  .next (s.written (s.blk.lockedWrite fun r => { r with coef := bankSet r.coef j data }))

/-- RD_SYMMAP (R97). -/
def execRdSymmap (n : Fin 2) (s : State) : Out := .next (s.answer (s.blk.cfg.symmap n))

/-- WR_SYMMAP (R98). -/
def execWrSymmap (n : Fin 2) (data : Word) (s : State) : Out :=
  .next (s.written (s.blk.lockedWrite fun r => r.setSymmap n data))

/-! ### Read-only and reserved offsets -/

/-- WR_RO at ID and VERSION (R99): no operation, no WERR even while running. -/
def execWrRoIdVersion (_off : BitVec 8) (_data : Word) (s : State) : Out := .next (s.written s.blk)

/-- WR_RO at RESULT (R99): neither pushes nor pops. -/
def execWrRoResult (_data : Word) (s : State) : Out := .next (s.written s.blk)

/-- WR_RO at SAMPLE_CNT and WIN_CNT (R99): the counters do not change. -/
def execWrRoCounters (_off : BitVec 8) (_data : Word) (s : State) : Out := .next (s.written s.blk)

/-- WR_RO at POWER[j] (R99). -/
def execWrRoPower (_j : Slot) (_data : Word) (s : State) : Out := .next (s.written s.blk)

/-- RD_RSVD at 0xC8, 0xCC (R100). -/
def execRdRsvdC8 (_off : BitVec 8) (s : State) : Out := .next (s.answer 0#32)

/-- RD_RSVD at 0xD0-0xDC (R100). -/
def execRdRsvdD0 (_off : BitVec 8) (s : State) : Out := .next (s.answer 0#32)

/-- RD_RSVD at 0xE0-0xFC (R100). -/
def execRdRsvdE0 (_off : BitVec 8) (s : State) : Out := .next (s.answer 0#32)

/-- WR_RSVD at 0xC8, 0xCC (R101). -/
def execWrRsvdC8 (_off : BitVec 8) (_data : Word) (s : State) : Out := .next (s.written s.blk)

/-- WR_RSVD at 0xD0-0xDC (R101). -/
def execWrRsvdD0 (_off : BitVec 8) (_data : Word) (s : State) : Out := .next (s.written s.blk)

/-- WR_RSVD at 0xE0-0xFC (R101). -/
def execWrRsvdE0 (_off : BitVec 8) (_data : Word) (s : State) : Out := .next (s.written s.blk)

/-! ### Bad accesses (R73): the bus error, whatever W is -/

/-- BAD_ACCESS, byte size. -/
def execBadAccessSz0 (_write : Bool) (off : BitVec 8) (s : State) : Out := .next (s.busError off)

/-- BAD_ACCESS, halfword size. -/
def execBadAccessSz1 (_write : Bool) (off : BitVec 8) (s : State) : Out := .next (s.busError off)

/-- BAD_ACCESS, reserved size. -/
def execBadAccessSz3 (_write : Bool) (off : BitVec 8) (s : State) : Out := .next (s.busError off)

/-- BAD_ACCESS, word access at an odd offset. -/
def execBadAccessOdd (_write : Bool) (off : BitVec 8) (s : State) : Out := .next (s.busError off)

/-- BAD_ACCESS, word access at an offset 2 mod 4. -/
def execBadAccessHalf (_write : Bool) (off : BitVec 8) (s : State) : Out := .next (s.busError off)

end Sys2Proof.Machine
end

