-- ==== Sys2Proof/Machine/Float.lean ====
section
/-! DEFINITION. binary32 arithmetic (spec/00_scope.md R10, R11, spec/30_encoding.md R67): operands are turned into integers,
the result is computed exactly, and one rounding narrows it (log 9).

A finite pattern stands for an integer number of units of 2^-149, the least subnormal: `scaled w` units. A sum is exact in that
unit, a product in units of 2^-298. -/

namespace Sys2Proof.Machine.F32

/-- Bit 31, the sign (R10). -/
def sign (w : Word) : Bool := w.getLsbD 31

/-- Bits [30:23], the biased exponent (R10). -/
def expo (w : Word) : Nat := (w.extractLsb' 23 8).toNat

/-- Bits [22:0], the fraction (R10). -/
def frac (w : Word) : Nat := (w.extractLsb' 0 23).toNat

/-- "A word is NaN iff bits [30:23] = 0xFF and bits [22:0] != 0" (R67). -/
def isNaN (w : Word) : Bool := expo w == 255 && frac w != 0

/-- ±infinity (R67: 0x7F800000 and 0xFF800000). -/
def isInf (w : Word) : Bool := expo w == 255 && frac w == 0

/-- Neither NaN nor infinite. -/
def isFinite (w : Word) : Bool := expo w != 255

/-- The canonical quiet NaN (R10, R67). -/
def nan : Word := 0x7FC00000#32

/-- The pattern with this sign and these bits [30:0]. -/
def ofMag (neg : Bool) (mag : Nat) : Word := BitVec.ofBool neg ++ BitVec.ofNat 31 mag

/-- ±infinity. -/
def inf (neg : Bool) : Word := ofMag neg 0x7F800000

/-- The magnitude of a pattern in units of 2^-149: subnormals have exponent field 0, normals a hidden bit. An infinity gets
2^277, which is above every finite magnitude, so one integer order serves R11's comparisons. -/
def scaledMag (w : Word) : Nat :=
  if expo w = 0 then frac w else (2 ^ 23 + frac w) * 2 ^ (expo w - 1)

/-- The signed value of a pattern in units of 2^-149 (both zeros are 0). -/
def scaled (w : Word) : Int := if sign w then -(scaledMag w : Int) else scaledMag w

/-- `n / 2^q` rounded to an integer, ties to even. -/
def roundShift (n q : Nat) : Nat :=
  let m := n / 2 ^ q
  let r := n % 2 ^ q
  if 2 ^ q < 2 * r ∨ (2 * r = 2 ^ q ∧ m % 2 = 1) then m + 1 else m

/-- Bits [30:0] of the binary32 datum nearest to `n` units of 2^-(149 + sh), ties to even, with no bound on the exponent. The
significand keeps 24 bits of `n`, fewer where the result is subnormal; adding it to the exponent field lets a carry out of the
significand step the exponent. -/
def roundMag (n sh : Nat) : Nat :=
  let q := max (Nat.log2 n - 23) sh
  (q - sh) * 2 ^ 23 + roundShift n q

/-- Round an exact magnitude to binary32 with roundTiesToEven: overflow gives a signed infinity (R10). -/
def round (neg : Bool) (n sh : Nat) : Word := ofMag neg (min (roundMag n sh) 0x7F800000)

/-- Round an exact signed integer; `zeroNeg` is the sign of an exact zero. -/
def roundInt (zeroNeg : Bool) (n : Int) (sh : Nat) : Word :=
  if n = 0 then ofMag zeroNeg 0 else round (decide (n < 0)) n.natAbs sh

/-- `-b`, the sign flipped. -/
def neg (b : Word) : Word := b ^^^ 0x80000000#32

/-- `f32_add(a, b)` (R10). The exact sum of two finite operands is rounded once; an exact zero is +0 unless both operands are
negative zeros (IEEE 754 under roundTiesToEven); inf + inf of opposite signs is NaN (R121). -/
def add (a b : Word) : Word :=
  if isNaN a || isNaN b then nan
  else if isInf a then (if isInf b && sign a != sign b then nan else inf (sign a))
  else if isInf b then inf (sign b)
  else roundInt (sign a && sign b) (scaled a + scaled b) 0

/-- `f32_sub(a, b)` (R10): the sum with the sign of `b` flipped. -/
def sub (a b : Word) : Word := add a (neg b)

/-- `f32_mul(a, b)` (R10). Infinity times zero is NaN (R130, R144). -/
def mul (a b : Word) : Word :=
  let s := sign a ^^ sign b
  if isNaN a || isNaN b then nan
  else if isInf a then (if scaledMag b = 0 then nan else inf s)
  else if isInf b then (if scaledMag a = 0 then nan else inf s)
  else round s (scaledMag a * scaledMag b) 149

/-- `f32_gt(a, b)` (R11). -/
def gt (a b : Word) : Bool := !isNaN a && !isNaN b && decide (scaled b < scaled a)

/-- `f32_ge(a, b)` (R11). -/
def ge (a b : Word) : Bool := !isNaN a && !isNaN b && decide (scaled b ≤ scaled a)

end Sys2Proof.Machine.F32
end

