-- ==== Sys2Proof/Machine/Sample.lean ====
section
/-! DEFINITION. The sample path (spec/42_sample_path.md): window schedule, power estimation, classification, debounce, result
words, completion, and the meaning of WR_SAMPLE. -/

namespace Sys2Proof.Machine

/-! ### Power estimation (R121-R123) -/

/-- The two resonator values s[n-1] and s[n-2]. -/
structure Resonator where
  s1 : Word
  s2 : Word
  deriving DecidableEq, Repr

/-- Each window starts its resonators from +0.0 (R121). -/
def Resonator.zero : Resonator := ⟨0#32, 0#32⟩

/-- One sample of R121's loop: `t <- mul(c, s1); u <- add(x_n, t); s0 <- sub(u, s2); s2 <- s1; s1 <- s0`. -/
def Resonator.next (c : Word) (r : Resonator) (x : Word) : Resonator :=
  let t := F32.mul c r.s1
  let u := F32.add x t
  let s0 := F32.sub u r.s2
  ⟨s0, r.s1⟩

/-- The lines after R121's loop: `P = s1^2 + s2^2 - c*s1*s2`, each operation rounded. -/
def Resonator.energy (c : Word) (r : Resonator) : Word :=
  let a := F32.mul r.s1 r.s1
  let b := F32.mul r.s2 r.s2
  let d := F32.add a b
  let e := F32.mul c r.s1
  let f := F32.mul e r.s2
  F32.sub d f

/-- `G(c, xs)` (R121). -/
def goertzel (c : Word) (xs : List Word) : Word := (xs.foldl (Resonator.next c) Resonator.zero).energy c

/-- `P[j] = G(c_j, xs)` for every slot, whatever the mode (R122). -/
def powers (coef : Bank) (xs : List Word) : Bank := bankMap (fun c => goertzel c xs) coef

/-- `POWER[j] <- bits(P[j])`, and NANSEEN if any is NaN (R123). -/
def Block.latch (b : Block) (p : Bank) : Block :=
  if bankAny F32.isNaN p then (b.setPower p).raise .nanseen else b.setPower p

/-! ### Classification (R125-R131) -/

/-- A classification: `NONE` or `DETECT(v, lidx, hidx)` (R125). -/
inductive WindowClass where
  | none
  | detect (v : BitVec 4) (lidx hidx : BitVec 2)
  deriving DecidableEq, Repr

/-- The slots in order. -/
def slots : List Slot := [0, 1, 2, 3, 4, 5, 6, 7, 8, 9, 10, 11, 12, 13, 14, 15]

/-- The loop of R126: `best` is replaced only by a strictly greater power. -/
def argmaxFrom (p : Bank) (best : Slot) : List Slot → Slot
  | [] => best
  | j :: js => argmaxFrom p (if F32.gt (bankGet p j) (bankGet p best) then j else best) js

/-- `argmax(P, lo, hi)` (R126). -/
def argmax (p : Bank) (lo hi : Slot) : Slot := argmaxFrom p lo (slots.filter (fun j => lo < j && j ≤ hi))

/-- DUAL (R127). -/
def classifyDual (r : Regs) (p : Bank) : WindowClass :=
  let l := argmax p 0 3
  let h := argmax p 4 7
  if F32.gt (bankGet p l) r.thresh && F32.gt (bankGet p h) r.thresh then
    .detect (r.symbol (4 * l.val + (h.val - 4))) (BitVec.ofNat 2 l.val) (BitVec.ofNat 2 (h.val - 4))
  else .none

/-- The gate of BIN: absolute (R129) or margin (R130). -/
def binGate (r : Regs) (win lose : Word) : Bool :=
  if r.gateMargin then F32.ge win (F32.mul r.ratio lose) else F32.gt win r.thresh

/-- BIN (R128): the higher of P[8] and P[9], gated; a tie or a NaN gives NONE. -/
def classifyBin (r : Regs) (p : Bank) : WindowClass :=
  let p0 := bankGet p 8
  let p1 := bankGet p 9
  if F32.gt p1 p0 then (if binGate r p1 p0 then .detect 1#4 0#2 0#2 else .none)
  else if F32.gt p0 p1 then (if binGate r p0 p1 then .detect 0#4 0#2 0#2 else .none)
  else .none

/-- TONE (R131). -/
def classifyTone (r : Regs) (p : Bank) : WindowClass :=
  if F32.gt (bankGet p r.toneSel) r.thresh then .detect (BitVec.ofNat 4 r.toneSel.val) 0#2 0#2 else .none

/-- `classify(P)` by CTRL.MODE (R125); no classification for MODE = 3, which "cannot occur in a run" (log 4). -/
def classify (r : Regs) (p : Bank) : Option WindowClass :=
  match r.mode with
  | .dual => some (classifyDual r p)
  | .bin => some (classifyBin r p)
  | .tone => some (classifyTone r p)
  | .invalid => none

/-! ### Result word and debounce (R132-R134) -/

/-- `word(k, r)` (spec/30_encoding.md R66, R133), from bit 31 down: WIDX [31:16], zero [15:12], HIDX [11:10], LIDX [9:8],
VALUE [7:4], KIND [3:2], DET [1], VALID [0]. -/
def resultWord (r : Regs) (k : Nat) : WindowClass → Word
  | .detect v l h => BitVec.ofNat 16 k ++ 0#4 ++ h ++ l ++ v ++ r.modeBits ++ 1#1 ++ 1#1
  | .none => BitVec.ofNat 16 k ++ 0#4 ++ 0#2 ++ 0#2 ++ 0#4 ++ r.modeBits ++ 0#1 ++ 1#1

/-- `acc <- 1` on a detection, before debounce (R132). -/
def Run.account (u : Run) : WindowClass → Run
  | .detect _ _ _ => { u with acc := true }
  | .none => u

/-- The suppression condition of R134 for a detection of VALUE `v` in the window that starts at `pos`. `pos - db_pos <=
DB_GUARD` is written without the subtraction (log 11). -/
def suppressed (r : Regs) (u : Run) (pos : Nat) (v : BitVec 4) : Bool :=
  r.dbEn && u.dbValid && (v == u.dbLast) && !u.dbGap && decide (pos ≤ u.dbPos + r.dbGuard.toNat)

/-- The debounce state after a window (R134): a NONE window sets the gap; every detection, suppressed or not, is the last. -/
def Run.debounced (u : Run) (pos : Nat) : WindowClass → Run
  | .detect v _ _ => { u with dbValid := true, dbLast := v, dbPos := pos, dbGap := false }
  | .none => { u with dbGap := true }

/-- Whether the window is EMITted (R134). -/
def emits (r : Regs) (u : Run) (pos : Nat) : WindowClass → Bool
  | .detect v _ _ => !suppressed r u pos v
  | .none => false

/-! ### Window schedule (R117-R120) -/

/-- The window that absorbing sample index `i` completes (R120): in SCAN `k = (i + 1 - N) div S` if `i + 1 >= N` and
`(i + 1 - N) mod S = 0`; in ONESHOT window 0 at `i = N - 1`. -/
def completedWindow (st : Stage) (n s i : Nat) : Option Nat :=
  match st with
  | .scan => if n ≤ i + 1 ∧ (i + 1 - n) % s = 0 then some ((i + 1 - n) / s) else none
  | .oneshot => if i + 1 = n then some 0 else none
  | .idle | .done => none

/-- The last `n` samples of a list: the window whose last sample has just been absorbed (R117; log 10). -/
def lastSamples (n : Nat) (xs : List Word) : List Word := xs.drop (xs.length - n)

/-- `x[i] <- data; i <- i + 1` (R115). -/
def Run.absorb (u : Run) (data : Word) : Run := { u with index := u.index + 1, samples := u.samples ++ [data] }

/-! ### Completion (R136-R138) -/

/-- The steps common to both completions, on the window's powers and class: latch, count, account (R122-R125, R132). -/
def Block.evaluated (b : Block) (p : Bank) (r : WindowClass) : Block :=
  let b1 := b.latch p
  b1.setRun ({ b1.run with wcount := b1.run.wcount + 1 }.account r)

/-- SCAN completion `complete(k)` after evaluation (R136): debounce, push what is emitted, and drop the samples before
`pos(k+1)`; `xs` is the window's samples. -/
def Block.completeScan (b : Block) (par : Params) (k : Nat) (xs : List Word) (r : WindowClass) : Block :=
  let pos := k * b.cfg.stepS
  let b1 := b.setRun { b.run.debounced pos r with samples := xs.drop b.cfg.stepS }
  if emits b.cfg b.run pos r then b1.push par (resultWord b.cfg k r) else b1

/-- ONESHOT completion `complete(0)` after evaluation (R137): the word is always posted, no debounce, and the run ends. -/
def Block.completeOneshot (b : Block) (par : Params) (r : WindowClass) : Block :=
  (b.push par (resultWord b.cfg 0 r)).finish

/-- The completion of window `k` in the block's STATE. -/
def Block.complete (b : Block) (par : Params) (k : Nat) (xs : List Word) (r : WindowClass) : Block :=
  match b.stage with
  | .oneshot => b.completeOneshot par r
  | .scan | .idle | .done => b.completeScan par k xs r

/-! ### WR_SAMPLE -/

/-- WR_SAMPLE (R115, R138): outside a run the sample is discarded and SERR set; in a run it is absorbed, and the window it
completes, if any, is evaluated. -/
def execWrSample (data : Word) (s : State) : Out :=
  let b := s.blk
  if !b.running then .next (s.written (b.raise .serr))
  else
    let b1 := b.setRun (b.run.absorb data)
    match completedWindow b.stage b.cfg.winN b.cfg.stepS b.run.index with
    | none => .next (s.written b1)
    | some k =>
      let xs := lastSamples b.cfg.winN b1.run.samples
      let p := powers b.cfg.coef xs
      match classify b.cfg p with
      | none => .fault .modeInvalidInRun
      | some r => .next (s.written ((b1.evaluated p r).complete s.par k xs r))

end Sys2Proof.Machine
end

