-- ==== Sys2Proof/Machine/Dispatch.lean ====
section
/-! DEFINITION. The dispatch: one arm per constructor of Instr, each a direct call of that instruction's meaning. -/

namespace Sys2Proof.Machine

/-- The effect of one instruction. -/
def exec (i : Instr) (s : State) : Host.Outcome State Fault Refusal :=
  match i with
  | .rdId => Sys2Proof.Machine.execRdId s
  | .rdVersion => Sys2Proof.Machine.execRdVersion s
  | .rdCtrl => Sys2Proof.Machine.execRdCtrl s
  | .rdWoCmd => Sys2Proof.Machine.execRdWoCmd s
  | .rdStatus => Sys2Proof.Machine.execRdStatus s
  | .rdIrqEn => Sys2Proof.Machine.execRdIrqEn s
  | .rdIrqStat => Sys2Proof.Machine.execRdIrqStat s
  | .rdWinLen => Sys2Proof.Machine.execRdWinLen s
  | .rdWinStep => Sys2Proof.Machine.execRdWinStep s
  | .rdDbGuard => Sys2Proof.Machine.execRdDbGuard s
  | .rdThresh => Sys2Proof.Machine.execRdThresh s
  | .rdRatio => Sys2Proof.Machine.execRdRatio s
  | .rdWoSample => Sys2Proof.Machine.execRdWoSample s
  | .rdResult => Sys2Proof.Machine.execRdResult s
  | .rdSampleCnt => Sys2Proof.Machine.execRdSampleCnt s
  | .rdWinCnt => Sys2Proof.Machine.execRdWinCnt s
  | .rdCoef j => Sys2Proof.Machine.execRdCoef j s
  | .rdPower j => Sys2Proof.Machine.execRdPower j s
  | .rdSymmap n => Sys2Proof.Machine.execRdSymmap n s
  | .rdRsvdC8 off => Sys2Proof.Machine.execRdRsvdC8 off s
  | .rdRsvdD0 off => Sys2Proof.Machine.execRdRsvdD0 off s
  | .rdRsvdE0 off => Sys2Proof.Machine.execRdRsvdE0 off s
  | .wrRoIdVersion off data => Sys2Proof.Machine.execWrRoIdVersion off data s
  | .wrCtrl data => Sys2Proof.Machine.execWrCtrl data s
  | .wrCmd data => Sys2Proof.Machine.execWrCmd data s
  | .wrStatus data => Sys2Proof.Machine.execWrStatus data s
  | .wrIrqEn data => Sys2Proof.Machine.execWrIrqEn data s
  | .wrIrqStat data => Sys2Proof.Machine.execWrIrqStat data s
  | .wrWinLen data => Sys2Proof.Machine.execWrWinLen data s
  | .wrWinStep data => Sys2Proof.Machine.execWrWinStep data s
  | .wrDbGuard data => Sys2Proof.Machine.execWrDbGuard data s
  | .wrThresh data => Sys2Proof.Machine.execWrThresh data s
  | .wrRatio data => Sys2Proof.Machine.execWrRatio data s
  | .wrSample data => Sys2Proof.Machine.execWrSample data s
  | .wrRoResult data => Sys2Proof.Machine.execWrRoResult data s
  | .wrRoCounters off data => Sys2Proof.Machine.execWrRoCounters off data s
  | .wrCoef j data => Sys2Proof.Machine.execWrCoef j data s
  | .wrRoPower j data => Sys2Proof.Machine.execWrRoPower j data s
  | .wrSymmap n data => Sys2Proof.Machine.execWrSymmap n data s
  | .wrRsvdC8 off data => Sys2Proof.Machine.execWrRsvdC8 off data s
  | .wrRsvdD0 off data => Sys2Proof.Machine.execWrRsvdD0 off data s
  | .wrRsvdE0 off data => Sys2Proof.Machine.execWrRsvdE0 off data s
  | .badAccessSz0 write off => Sys2Proof.Machine.execBadAccessSz0 write off s
  | .badAccessSz1 write off => Sys2Proof.Machine.execBadAccessSz1 write off s
  | .badAccessSz3 write off => Sys2Proof.Machine.execBadAccessSz3 write off s
  | .badAccessOdd write off => Sys2Proof.Machine.execBadAccessOdd write off s
  | .badAccessHalf write off => Sys2Proof.Machine.execBadAccessHalf write off s
  | .nop => Sys2Proof.Machine.execNop s
  | .startScan => Sys2Proof.Machine.execStartScan s
  | .startOneshot => Sys2Proof.Machine.execStartOneshot s
  | .endStream => Sys2Proof.Machine.execEndStream s
  | .abort => Sys2Proof.Machine.execAbort s
  | .flush => Sys2Proof.Machine.execFlush s
  | .softReset => Sys2Proof.Machine.execSoftReset s
  | .cmdInvalid word => Sys2Proof.Machine.execCmdInvalid word s

end Sys2Proof.Machine
end

