-- ==== Sys2Proof/Machine/Step.lean ====
section
/-! DEFINITION. One step: the next pending host operation (spec/20_memory.md R49, R52). -/

namespace Sys2Proof.Machine

/-- `rst` while a bus operation is in flight (spec/70_reset_and_hazards.md R176, spec/93_implementation_defined.md U5): the
platform decides whether the operation completes before the reset or is dropped, a free draw. The block is reset either way;
only what the master saw differs (log 3). -/
def resetInFlight (i : Instr) (s : State) : Out :=
  if Config.inFlightCompletes s.draws then
    match exec i s with
    | .next t => .next t.resetBlock.drawn
    | .fault r => .fault r
    | .refused r => .refused r
  else .next (s.resetBlock.setResp .none).drawn

/-- One host operation takes effect as one indivisible step, with all its consequences (R49). With nothing pending the block
does nothing of its own (log 1). -/
def step (s : State) : Host.Outcome State Fault Refusal :=
  match s.host with
  | [] => .next s
  | .busop sel data :: rest => exec (decodeBusop sel data) (s.setHost rest)
  | .rst :: rest => .next ((s.setHost rest).resetBlock.setResp .none)
  | .rstInFlight sel data :: rest => resetInFlight (decodeBusop sel data) (s.setHost rest)

/-- The host operation that carries a code: a CMD32 word travels as the data of a write to CMD, selector 0x60C (R62, R102;
log 7). -/
def hostOpOf : Code → HostOp
  | .busop sel data => .busop sel data
  | .cmd32 word => .busop 0x60C#11 word

/-- `s` with the instruction of a table word placed where `step` takes its next operation: at the head of the pending host
operations (log 1). Bits that are no instruction place nothing. -/
def State.withFetchWord (s : State) (nbits w : Nat) : State :=
  match codeOfTableWord nbits w with
  | some c => s.setHost (hostOpOf c :: s.host)
  | none => s

end Sys2Proof.Machine
end

