-- ==== Sys2Proof/Safety.lean ====
section
/-! DEFINITION. What claims are stated in: the machine's invariant, the launch premises and error premises of
spec/70_reset_and_hazards.md R180, the classes of instructions the spec's whole-machine rules speak of, and the real value of a
binary32 pattern (spec/00_scope.md R10). -/

namespace Sys2Proof.Machine

/-! ### The invariant -/

/-- A word of the result FIFO: VALID = 1, bits [15:12] zero, KIND not 3 (spec/30_encoding.md R66). -/
abbrev resultWordOk (w : Word) : Prop :=
  w.getLsbD 0 = true ∧ w.extractLsb' 12 4 = 0#4 ∧ w.extractLsb' 2 2 ≠ 3#2

/-- The FIFO holds at most RFIFO_DEPTH result words, at most one per completed window (spec/10_state.md R38,
spec/42_sample_path.md R139). -/
abbrev Block.FifoInv (b : Block) (par : Params) : Prop :=
  b.fifo.length ≤ par.rfifoDepth ∧ b.fifo.length ≤ b.run.wcount ∧ ∀ w ∈ b.fifo, resultWordOk w

/-- A run's configuration passed `cfg_ok` at its START and is locked since (spec/41_commands.md R104,
spec/40_register_access.md R72). -/
abbrev Block.ConfigInv (b : Block) (par : Params) : Prop :=
  (b.stage = .scan → cfgOk par true b.cfg = true) ∧ (b.stage = .oneshot → cfgOk par false b.cfg = true)

/-- `WIN_CNT = (SAMPLE_CNT < N) ? 0 : (SAMPLE_CNT - N) div S + 1` (spec/43_result_readout.md R149). -/
def windowsCompleted (n s i : Nat) : Nat := if i < n then 0 else (i - n) / s + 1

/-- The window schedule (spec/42_sample_path.md R117-R120, R140): in a run the kept samples are those from `pos(wcount)` on, at
most N - 1 of them; outside a run none are kept. -/
abbrev Block.ScheduleInv (b : Block) : Prop :=
  (b.stage = .scan →
    b.run.wcount = windowsCompleted b.cfg.winN b.cfg.stepS b.run.index ∧
    b.run.samples.length + b.run.wcount * b.cfg.stepS = b.run.index ∧
    b.run.samples.length < b.cfg.winN) ∧
  (b.stage = .oneshot →
    b.run.wcount = 0 ∧ b.run.samples.length = b.run.index ∧ b.run.index < b.cfg.winN) ∧
  (b.running = false → b.run.samples = [])

/-- The debounce state (spec/10_state.md R41, spec/42_sample_path.md R134, R172): the last detection's window lies before the
next one to complete, exactly one step before it if no gap came since; SCAN's detections are all accounted. -/
abbrev Block.DebounceInv (b : Block) : Prop :=
  (b.run.dbValid = true → b.run.acc = true) ∧
  (b.stage = .scan →
    b.run.acc = b.run.dbValid ∧
    (b.run.dbValid = true → b.run.dbPos + b.cfg.stepS ≤ b.run.wcount * b.cfg.stepS) ∧
    (b.run.dbValid = true → b.run.dbGap = false → b.run.dbPos + b.cfg.stepS = b.run.wcount * b.cfg.stepS)) ∧
  (b.stage = .oneshot → b.run.acc = false ∧ b.run.dbValid = false)

/-- The invariant of the machine. It holds at reset, and every step keeps it. -/
structure State.Inv (s : State) : Prop where
  /-- The parameters are legal (spec/00_scope.md R6). -/
  params : s.par.Legal
  /-- The FIFO. -/
  fifo : s.blk.FifoInv s.par
  /-- The configuration of a run. -/
  config : s.blk.ConfigInv s.par
  /-- The window schedule. -/
  schedule : s.blk.ScheduleInv
  /-- The debounce state. -/
  debounce : s.blk.DebounceInv

/-! ### Premises of claims about a run (R180) -/

/-- "A model's clean entry for a run": right after a successful START (R180). -/
abbrev Block.Launched (b : Block) : Prop := b.running = true ∧ b.fifo = [] ∧ b.run = Run.init

/-- "The premise 'no error recorded' is STATUS[12:8] = 0" (R180). -/
abbrev Block.NoErrorRecorded (b : Block) : Prop := b.sticky.extractLsb' 0 5 = 0#5

/-- No bus error was answered to the last operation (spec/93_implementation_defined.md U4). -/
abbrev State.NoBusError (s : State) : Prop := ∀ off, s.resp ≠ .busError off

end Sys2Proof.Machine

namespace Sys2Proof

/-! ### Classes of instructions -/

/-- The reads without side effect: every read but RD_RESULT (spec/20_memory.md R50, spec/40_register_access.md R71). -/
def Instr.isPureRead : Instr → Bool
  | .rdId | .rdVersion | .rdCtrl | .rdWoCmd | .rdStatus | .rdIrqEn | .rdIrqStat | .rdWinLen | .rdWinStep | .rdDbGuard
  | .rdThresh | .rdRatio | .rdWoSample | .rdSampleCnt | .rdWinCnt | .rdCoef _ | .rdPower _ | .rdSymmap _
  | .rdRsvdC8 _ | .rdRsvdD0 _ | .rdRsvdE0 _ => true
  | .rdResult | .wrRoIdVersion _ _ | .wrCtrl _ | .wrCmd _ | .wrStatus _ | .wrIrqEn _ | .wrIrqStat _ | .wrWinLen _
  | .wrWinStep _ | .wrDbGuard _ | .wrThresh _ | .wrRatio _ | .wrSample _ | .wrRoResult _ | .wrRoCounters _ _
  | .wrCoef _ _ | .wrRoPower _ _ | .wrSymmap _ _ | .wrRsvdC8 _ _ | .wrRsvdD0 _ _ | .wrRsvdE0 _ _ | .badAccessSz0 _ _
  | .badAccessSz1 _ _ | .badAccessSz3 _ _ | .badAccessOdd _ _ | .badAccessHalf _ _ | .nop | .startScan
  | .startOneshot | .endStream | .abort | .flush | .softReset | .cmdInvalid _ => false

/-- The command an instruction performs, directly or as the data of WR_CMD. -/
def Instr.command : Instr → Option Command
  | .wrCmd data => some (decodeCommand data)
  | .nop => some .nop
  | .startScan => some .startScan
  | .startOneshot => some .startOneshot
  | .endStream => some .endStream
  | .abort => some .abort
  | .flush => some .flush
  | .softReset => some .softReset
  | .cmdInvalid word => some (.invalid word)
  | .rdId | .rdVersion | .rdCtrl | .rdWoCmd | .rdStatus | .rdIrqEn | .rdIrqStat | .rdWinLen | .rdWinStep | .rdDbGuard
  | .rdThresh | .rdRatio | .rdWoSample | .rdResult | .rdSampleCnt | .rdWinCnt | .rdCoef _ | .rdPower _ | .rdSymmap _
  | .rdRsvdC8 _ | .rdRsvdD0 _ | .rdRsvdE0 _ | .wrRoIdVersion _ _ | .wrCtrl _ | .wrStatus _ | .wrIrqEn _
  | .wrIrqStat _ | .wrWinLen _ | .wrWinStep _ | .wrDbGuard _ | .wrThresh _ | .wrRatio _ | .wrSample _ | .wrRoResult _
  | .wrRoCounters _ _ | .wrCoef _ _ | .wrRoPower _ _ | .wrSymmap _ _ | .wrRsvdC8 _ _ | .wrRsvdD0 _ _ | .wrRsvdE0 _ _
  | .badAccessSz0 _ _ | .badAccessSz1 _ _ | .badAccessSz3 _ _ | .badAccessOdd _ _ | .badAccessHalf _ _ => none

/-- The registers of R72's LOCKED set, by offset. -/
def lockedOffset (off : BitVec 8) : Bool :=
  let k := off.toNat
  k % 4 == 0 && (k == 0x08 || (0x1C ≤ k && k ≤ 0x2C) || (0x40 ≤ k && k ≤ 0x7C) || (0xC0 ≤ k && k ≤ 0xC4))

/-- The writes to a locked register. -/
def Instr.isLockedWrite : Instr → Bool
  | .wrCtrl _ | .wrWinLen _ | .wrWinStep _ | .wrDbGuard _ | .wrThresh _ | .wrRatio _ | .wrCoef _ _ | .wrSymmap _ _ => true
  | .rdId | .rdVersion | .rdCtrl | .rdWoCmd | .rdStatus | .rdIrqEn | .rdIrqStat | .rdWinLen | .rdWinStep | .rdDbGuard
  | .rdThresh | .rdRatio | .rdWoSample | .rdResult | .rdSampleCnt | .rdWinCnt | .rdCoef _ | .rdPower _ | .rdSymmap _
  | .rdRsvdC8 _ | .rdRsvdD0 _ | .rdRsvdE0 _ | .wrRoIdVersion _ _ | .wrCmd _ | .wrStatus _ | .wrIrqEn _ | .wrIrqStat _
  | .wrSample _ | .wrRoResult _ | .wrRoCounters _ _ | .wrRoPower _ _ | .wrRsvdC8 _ _ | .wrRsvdD0 _ _ | .wrRsvdE0 _ _
  | .badAccessSz0 _ _ | .badAccessSz1 _ _ | .badAccessSz3 _ _ | .badAccessOdd _ _ | .badAccessHalf _ _ | .nop
  | .startScan | .startOneshot | .endStream | .abort | .flush | .softReset | .cmdInvalid _ => false

end Sys2Proof

namespace Sys2Proof.Machine

/-! ### The real value of a pattern -/

/-- The rational number a finite binary32 pattern encodes (spec/00_scope.md R10: sign, biased exponent, fraction). -/
def F32.value (w : Word) : ℚ :=
  let m : ℚ := if F32.expo w = 0 then F32.frac w * (2 : ℚ) ^ (-149 : ℤ)
    else (1 + F32.frac w / 2 ^ 23) * (2 : ℚ) ^ ((F32.expo w : ℤ) - 127)
  if F32.sign w then -m else m

/-- The least real magnitude that roundTiesToEven takes to infinity: (2 - 2^-24) * 2^127. -/
def F32.overflowAt : ℚ := (2 - 1 / 2 ^ 24) * 2 ^ 127

/-- `r` is `x` correctly rounded to binary32 with roundTiesToEven (R10): an overflow gives a signed infinity; otherwise `r` is
finite, no finite datum is nearer to `x`, and of two nearest data `r` is the one with an even significand. -/
def F32.RoundsTo (x : ℚ) (r : Word) : Prop :=
  if F32.overflowAt ≤ |x| then r = F32.inf (decide (x < 0))
  else F32.isFinite r = true ∧
    ∀ w, F32.isFinite w = true →
      |F32.value r - x| ≤ |F32.value w - x| ∧
      (|F32.value r - x| = |F32.value w - x| → F32.value r ≠ F32.value w → F32.frac r % 2 = 0)

end Sys2Proof.Machine
end

