-- ==== Sys2Proof/Certificates/Slice0/Obligations.lean ====
section
/-! DEFINITION. The statements for the provers. Each docstring names the rules of spec/ it formalises. Where a statement rests on
a choice of the model, its docstring says so and names the log entry. -/

open Sys2Proof Sys2Proof.Machine

/-! ### Encoding -/

/-- Words written out from the encodings of R59, R60, R61 and R63, R64, each with the instruction it stands for; the two
WR_COEF and RD_SYMMAP words show the index fields. -/
def Obligations.EncodedWordsDecode : Prop :=
  decode (.busop 0b01000000000#11 0#32) = .rdId ∧
  decode (.busop 0b01000110100#11 0#32) = .rdResult ∧
  decode (.busop 0b01001100100#11 0#32) = .rdCoef 9 ∧
  decode (.busop 0b01011000100#11 0#32) = .rdSymmap 1 ∧
  decode (.busop 0b11000001000#11 0xFF#32) = .wrCtrl 0xFF#32 ∧
  decode (.busop 0b11001111100#11 0x3FFEBD1F#32) = .wrCoef 15 0x3FFEBD1F#32 ∧
  decode (.busop 0b11000110000#11 0x3F800000#32) = .wrSample 0x3F800000#32 ∧
  decode (.busop 0b11000001100#11 1#32) = .wrCmd 1#32 ∧
  decode (.busop 0b11011010000#11 0xFFFFFFFF#32) = .wrRsvdD0 0xD0#8 0xFFFFFFFF#32 ∧
  decode (.busop 0b00100010000#11 0#32) = .badAccessSz1 false 0x10#8 ∧
  decode (.busop 0b01011111111#11 0#32) = .badAccessOdd false 0xFF#8 ∧
  decode (.busop 0b11100001100#11 0#32) = .badAccessSz3 true 0x0C#8 ∧
  decode (.cmd32 1#32) = .startScan ∧ decode (.cmd32 6#32) = .softReset ∧
  decode (.cmd32 0x103#32) = .cmdInvalid 0x103#32

/-- Decode and encode agree: every well-formed instruction, with every operand at every value its encoding admits, decodes back
from its words. -/
def Obligations.DecodeEncodeRoundTrip : Prop :=
  ∀ i : Instr, i.wellFormed = true → decode (encode i) = i

/-- The other direction: an encoding is decoded without losing a selector bit, a command bit, or the data word of a legal
write; what a code decodes to is well formed. -/
def Obligations.EncodeDecodeKeepsEveryBit : Prop :=
  (∀ sel data, ∃ data', encode (decode (.busop sel data)) = .busop sel data' ∧
    (selLegal sel = true → selWrite sel = true → data' = data)) ∧
  (∀ word, encode (decode (.cmd32 word)) = .cmd32 word) ∧
  (∀ c, (decode c).wellFormed = true)

/-- R60, R61 and the opcode table: exactly one entry of the list of BUSOP rows covers an 11-bit selector, and it is the row of
the instruction that the selector decodes to; the list has the table's 47 rows. -/
def Obligations.EverySelectorHasOneRow : Prop :=
  busopRows.length = 47 ∧
  ∀ (sel : BitVec 11) (data : Word), ∃ r : Row,
    busopRows.filter (fun q => q.covers sel) = [r] ∧ r.mnemonic = (decodeBusop sel data).mnemonic

/-- R63, R64: a word selects a command iff it is the whole word of the table; every other word is CMD_INVALID. -/
def Obligations.CommandWordsAreExact : Prop :=
  ∀ word : Word,
    (decode (.cmd32 word) = .nop ↔ word = 0x00000000#32) ∧
    (decode (.cmd32 word) = .startScan ↔ word = 0x00000001#32) ∧
    (decode (.cmd32 word) = .startOneshot ↔ word = 0x00000002#32) ∧
    (decode (.cmd32 word) = .endStream ↔ word = 0x00000003#32) ∧
    (decode (.cmd32 word) = .abort ↔ word = 0x00000004#32) ∧
    (decode (.cmd32 word) = .flush ↔ word = 0x00000005#32) ∧
    (decode (.cmd32 word) = .softReset ↔ word = 0x00000006#32) ∧
    (decode (.cmd32 word) = .cmdInvalid word ↔ (7 ≤ (word.extractLsb' 0 8).toNat ∨ word.extractLsb' 8 24 ≠ 0#24))

/-- The byte layout of log 6 loses nothing: the bytes of a code are read back as that code. -/
def Obligations.CodeBytesRoundTrip : Prop :=
  ∀ c : Code, codeOfBytes c.bytes = .ok c

/-! ### Step, reset, bus errors -/

/-- R49, R52: a step takes the next bus operation and is the effect of the instruction it decodes to, the operation gone from
the pending list; with nothing pending the block does nothing (the list is the model's, log 1). -/
def Obligations.StepRunsTheDecodedInstruction : Prop :=
  (∀ (s : State) sel data rest, s.host = .busop sel data :: rest →
    step s = exec (decodeBusop sel data) { s with host := rest }) ∧
  (∀ s : State, s.host = [] → step s = .next s)

/-- R177: the value of every piece of state after reset, with the views of it that registers read. -/
def Obligations.ResetValues : Prop :=
  let b := State.reset.blk
  b.stage = .idle ∧ b.cfg.ctrl = 0x08#8 ∧ b.cfg.mode = .dual ∧ b.cfg.gateMargin = false ∧ b.cfg.dbEn = true ∧
  b.cfg.toneSel = 0 ∧ b.sticky = 0#6 ∧ b.status State.reset.par = 0x00000000#32 ∧ b.irqEn = 0#3 ∧ b.irqStat = 0#3 ∧
  b.cfg.winLen = 2205#16 ∧ b.cfg.winStep = 2205#16 ∧ b.cfg.dbGuard = 2205#32 ∧
  b.cfg.thresh = 0x7F800000#32 ∧ b.cfg.ratio = 0x7F800000#32 ∧
  (∀ j, bankGet b.cfg.coef j = 0x00000000#32) ∧ (∀ j, bankGet b.power j = 0x00000000#32) ∧
  b.cfg.symmap0 = 0x76543210#32 ∧ b.cfg.symmap1 = 0xFEDCBA98#32 ∧
  b.fifo = [] ∧ b.run.index = 0 ∧ b.run.samples = [] ∧ b.run.wcount = 0 ∧
  b.run.dbValid = false ∧ b.run.dbLast = 0#4 ∧ b.run.dbPos = 0 ∧ b.run.dbGap = false ∧ b.run.acc = false ∧
  b.irq = false ∧
  exec .rdId State.reset = .next { State.reset with resp := .data 0x544F4E44#32 } ∧
  exec .rdVersion State.reset = .next { State.reset with resp := .data 0x00010000#32 }

/-- R176, R112: the `rst` input and SOFT_RESET have the same effect on the block, its reset state; `rst` is a step of its own;
when it meets an operation in flight, the block is reset whether or not the operation completed, and the master saw the
operation's own response or none (a free draw, log 3). -/
def Obligations.ResetIsOneEffect : Prop :=
  (∀ (s : State) rest, s.host = .rst :: rest →
    step s = .next { s with blk := State.reset.blk, host := rest, resp := .none }) ∧
  (∀ s : State, exec .softReset s = .next { s with blk := State.reset.blk, resp := .written }) ∧
  (∀ (s : State) sel data rest, s.Inv → s.host = .rstInFlight sel data :: rest →
    ∃ t u, step s = .next t ∧ exec (decodeBusop sel data) { s with host := rest } = .next u ∧
      (t = { s with blk := State.reset.blk, host := rest, resp := .none, draws := s.draws + 1 } ∨
       t = { s with blk := State.reset.blk, host := rest, resp := u.resp, draws := s.draws + 1 }))

/-- R73: an access that is not a word access at a multiple of 4 is answered with BusError(off), and nothing else changes,
whatever the state, W and the data are. -/
def Obligations.BadAccessIsABusErrorOnly : Prop :=
  ∀ (s : State) (sel : BitVec 11) (data : Word),
    sel.extractLsb' 8 2 ≠ 2#2 ∨ sel.extractLsb' 0 2 ≠ 0#2 →
    exec (decodeBusop sel data) s = .next { s with resp := .busError (sel.extractLsb' 0 8) }

/-- R73 by instruction: the five BAD_ACCESS rows complete with the bus error as their whole effect. -/
def Obligations.BadAccessRowsComplete : Prop :=
  ∀ (s : State) (write : Bool) (off : BitVec 8),
    exec (.badAccessSz0 write off) s = .next { s with resp := .busError off } ∧
    exec (.badAccessSz1 write off) s = .next { s with resp := .busError off } ∧
    exec (.badAccessSz3 write off) s = .next { s with resp := .busError off } ∧
    exec (.badAccessOdd write off) s = .next { s with resp := .busError off } ∧
    exec (.badAccessHalf write off) s = .next { s with resp := .busError off }

/-- R46 says that a model may take off = addr - BASE_ADDR with 0 <= off <= 0xFF. The model's choice (log 12) on a 32-bit address:
an access at BASE_ADDR + off modulo 2^32 is the bus operation with that OFF, and an address with no such offset is no access to
the block. -/
def Obligations.RoutingTakesTheOffset : Prop :=
  (∀ (a : BusAccess) (off : BitVec 8), a.addr = Config.baseAddr + off.setWidth 32 →
    ∃ sel, busopOf a = some (.busop sel a.data) ∧
      selWrite sel = a.write ∧ selSize sel = a.size ∧ selOff sel = off) ∧
  (∀ a : BusAccess, 0xFF < (a.addr - Config.baseAddr).toNat → busopOf a = none)

/-! ### Reads -/

/-- R74, R75: ID and VERSION, selectors 0x200 and 0x204, read their constants in every state, and nothing else changes. -/
def Obligations.IdentityReads : Prop :=
  ∀ (s : State) (d : Word),
    decodeBusop 0x200#11 d = .rdId ∧ decodeBusop 0x204#11 d = .rdVersion ∧
    exec .rdId s = .next { s with resp := .data 0x544F4E44#32 } ∧
    exec .rdVersion s = .next { s with resp := .data 0x00010000#32 }

/-- R76, R85, R87, R89, R91, R93, R95, R97: a configuration register, read through its selector, gives its bits zero-extended,
in every state, and nothing else changes. -/
def Obligations.ConfigurationReads : Prop :=
  ∀ (s : State) (d : Word),
    decodeBusop 0x208#11 d = .rdCtrl ∧ decodeBusop 0x21C#11 d = .rdWinLen ∧ decodeBusop 0x220#11 d = .rdWinStep ∧
    decodeBusop 0x224#11 d = .rdDbGuard ∧ decodeBusop 0x228#11 d = .rdThresh ∧ decodeBusop 0x22C#11 d = .rdRatio ∧
    (∀ j : Slot, decodeBusop (BitVec.ofNat 11 (0x240 + 4 * j.val)) d = .rdCoef j) ∧
    (∀ n : Fin 2, decodeBusop (BitVec.ofNat 11 (0x2C0 + 4 * n.val)) d = .rdSymmap n) ∧
    exec .rdCtrl s = .next { s with resp := .data (s.blk.cfg.ctrl.setWidth 32) } ∧
    exec .rdWinLen s = .next { s with resp := .data (s.blk.cfg.winLen.setWidth 32) } ∧
    exec .rdWinStep s = .next { s with resp := .data (s.blk.cfg.winStep.setWidth 32) } ∧
    exec .rdDbGuard s = .next { s with resp := .data s.blk.cfg.dbGuard } ∧
    exec .rdThresh s = .next { s with resp := .data s.blk.cfg.thresh } ∧
    exec .rdRatio s = .next { s with resp := .data s.blk.cfg.ratio } ∧
    (∀ j, exec (.rdCoef j) s = .next { s with resp := .data (bankGet s.blk.cfg.coef j) }) ∧
    exec (.rdSymmap 0) s = .next { s with resp := .data s.blk.cfg.symmap0 } ∧
    exec (.rdSymmap 1) s = .next { s with resp := .data s.blk.cfg.symmap1 }

/-- R78, R100: the write-only registers CMD and SAMPLE, selectors 0x20C and 0x230, and the reserved offsets 0xC8-0xFC read
0x00000000, and nothing else changes. -/
def Obligations.WriteOnlyAndReservedReadZero : Prop :=
  ∀ (s : State) (off : BitVec 8) (d : Word),
    decodeBusop 0x20C#11 d = .rdWoCmd ∧ decodeBusop 0x230#11 d = .rdWoSample ∧
    (off.toNat % 4 = 0 → 0xC8 ≤ off.toNat →
      exec (decodeBusop (mkSel false 2#2 off) d) s = .next { s with resp := .data 0#32 }) ∧
    exec .rdWoCmd s = .next { s with resp := .data 0#32 } ∧
    exec .rdWoSample s = .next { s with resp := .data 0#32 } ∧
    exec (.rdRsvdC8 off) s = .next { s with resp := .data 0#32 } ∧
    exec (.rdRsvdD0 off) s = .next { s with resp := .data 0#32 } ∧
    exec (.rdRsvdE0 off) s = .next { s with resp := .data 0#32 }

/-- R79: the word RD_STATUS (selector 0x210) returns, field by field, and the read has no side effect. -/
def Obligations.StatusReadFields : Prop :=
  (∀ d, decodeBusop 0x210#11 d = .rdStatus) ∧
  ∀ s : State, ∃ w : Word,
    exec .rdStatus s = .next { s with resp := .data w } ∧
    w.extractLsb' 0 2 = s.blk.stage.code ∧
    w.getLsbD 2 = decide (0 < s.blk.fifo.length) ∧
    w.getLsbD 3 = decide (s.blk.fifo.length = s.par.rfifoDepth) ∧
    w.getLsbD 4 = decide (s.blk.stage = .done ∧ s.blk.run.acc = false) ∧
    w.extractLsb' 5 3 = 0#3 ∧
    w.extractLsb' 8 6 = s.blk.sticky ∧
    w.extractLsb' 14 2 = 0#2 ∧
    (w.extractLsb' 16 5).toNat = s.blk.fifo.length % 32 ∧
    w.extractLsb' 21 11 = 0#11

/-- R81, R83: IRQ_EN and IRQ_STAT read their three bits zero-extended; reading acknowledges nothing. -/
def Obligations.InterruptReads : Prop :=
  ∀ (s : State) (d : Word),
    decodeBusop 0x214#11 d = .rdIrqEn ∧ decodeBusop 0x218#11 d = .rdIrqStat ∧
    exec .rdIrqEn s = .next { s with resp := .data (s.blk.irqEn.setWidth 32) } ∧
    exec .rdIrqStat s = .next { s with resp := .data (s.blk.irqStat.setWidth 32) }

/-- R146: RD_RESULT (selector 0x234) returns and removes the FIFO's oldest word; with the FIFO empty it returns 0x00000000 and
nothing changes. No sticky bit and no event bit changes. -/
def Obligations.ResultReadPops : Prop :=
  ∀ s : State,
    (∀ d, decodeBusop 0x234#11 d = .rdResult) ∧
    (s.blk.fifo = [] → exec .rdResult s = .next { s with resp := .data 0x00000000#32 }) ∧
    (∀ w rest, s.blk.fifo = w :: rest →
      exec .rdResult s = .next { s with blk := { s.blk with fifo := rest }, resp := .data w })

/-- R147, and the views of R148 and R149: POWER[j] (selector 0x280 + 4j) reads as latched, SAMPLE_CNT and WIN_CNT read `i` and
`wcount` modulo 2^32, and nothing else changes. -/
def Obligations.PowerAndCounterReads : Prop :=
  ∀ s : State,
    (∀ (j : Slot) d, decodeBusop (BitVec.ofNat 11 (0x280 + 4 * j.val)) d = .rdPower j) ∧
    (∀ d, decodeBusop 0x238#11 d = .rdSampleCnt ∧ decodeBusop 0x23C#11 d = .rdWinCnt) ∧
    (∀ j, exec (.rdPower j) s = .next { s with resp := .data (bankGet s.blk.power j) }) ∧
    (∃ w : Word, exec .rdSampleCnt s = .next { s with resp := .data w } ∧ w.toNat = s.blk.run.index % 2 ^ 32) ∧
    (∃ w : Word, exec .rdWinCnt s = .next { s with resp := .data w } ∧ w.toNat = s.blk.run.wcount % 2 ^ 32)

/-- R50, R71: every read but RD_RESULT leaves the machine as it was but for the word it returns. -/
def Obligations.PureReadsHaveNoSideEffect : Prop :=
  ∀ (i : Instr) (s : State), i.isPureRead = true → ∃ w, exec i s = .next { s with resp := .data w }

/-! ### Writes -/

/-- R65, R77, R86, R88, R90, R92, R94, R96, R98: outside a run, a write to a locked register stores its operand field and
changes nothing else. -/
def Obligations.ConfigurationWritesStore : Prop :=
  ∀ (s : State) (d : Word), s.blk.stage = .idle ∨ s.blk.stage = .done →
    exec (.wrCtrl d) s =
      .next { s with blk := { s.blk with cfg := { s.blk.cfg with ctrl := d.extractLsb' 0 8 } }, resp := .written } ∧
    exec (.wrWinLen d) s =
      .next { s with blk := { s.blk with cfg := { s.blk.cfg with winLen := d.extractLsb' 0 16 } }, resp := .written } ∧
    exec (.wrWinStep d) s =
      .next { s with blk := { s.blk with cfg := { s.blk.cfg with winStep := d.extractLsb' 0 16 } }, resp := .written } ∧
    exec (.wrDbGuard d) s =
      .next { s with blk := { s.blk with cfg := { s.blk.cfg with dbGuard := d } }, resp := .written } ∧
    exec (.wrThresh d) s =
      .next { s with blk := { s.blk with cfg := { s.blk.cfg with thresh := d } }, resp := .written } ∧
    exec (.wrRatio d) s =
      .next { s with blk := { s.blk with cfg := { s.blk.cfg with ratio := d } }, resp := .written } ∧
    (∀ j, ∃ coef, exec (.wrCoef j d) s =
        .next { s with blk := { s.blk with cfg := { s.blk.cfg with coef := coef } }, resp := .written } ∧
      ∀ k, bankGet coef k = if k = j then d else bankGet s.blk.cfg.coef k) ∧
    exec (.wrSymmap 0 d) s =
      .next { s with blk := { s.blk with cfg := { s.blk.cfg with symmap0 := d } }, resp := .written } ∧
    exec (.wrSymmap 1 d) s =
      .next { s with blk := { s.blk with cfg := { s.blk.cfg with symmap1 := d } }, resp := .written }

/-- R72: while running, a write to a locked offset leaves the register as it is and sets WERR and IRQ_STAT.ERR, even if the
data equals the register's value; a write to any other aligned offset never sets WERR; an access that is not legal is a bus
error before anything else. -/
def Obligations.LockedWritesAreRefusedWhileRunning : Prop :=
  ∀ (s : State) (off : BitVec 8) (data : Word), s.blk.stage = .scan ∨ s.blk.stage = .oneshot →
    (lockedOffset off = true →
      exec (decodeBusop (mkSel true 2#2 off) data) s =
        .next { s with
          blk := { s.blk with sticky := s.blk.sticky ||| 0b000100#6, irqStat := s.blk.irqStat ||| 0b100#3 },
          resp := .written }) ∧
    (lockedOffset off = false → off.toNat % 4 = 0 → ∀ t, exec (decodeBusop (mkSel true 2#2 off) data) s = .next t →
      t.blk.flag .werr = true → s.blk.flag .werr = true) ∧
    (∀ size, size ≠ 2#2 ∨ off.toNat % 4 ≠ 0 →
      exec (decodeBusop (mkSel true size off) data) s = .next { s with resp := .busError off })

/-- R82: WR_IRQ_EN (selector 0x614) stores data[2:0] in every state, and `irq` follows at once. -/
def Obligations.InterruptEnableWrite : Prop :=
  ∀ (s : State) (d : Word), decodeBusop 0x614#11 d = .wrIrqEn d ∧ ∃ t,
    exec (.wrIrqEn d) s = .next t ∧
    t = { s with blk := { s.blk with irqEn := d.extractLsb' 0 3 }, resp := .written } ∧
    t.blk.irq = decide (s.blk.irqStat &&& d.extractLsb' 0 3 ≠ 0#3)

/-- R80: WR_STATUS (selector 0x610) clears the sticky bits written as 1 and changes nothing else, IRQ_STAT.ERR included, in
every state. -/
def Obligations.StatusWriteClearsStickyBits : Prop :=
  ∀ (s : State) (d : Word),
    decodeBusop 0x610#11 d = .wrStatus d ∧
    exec (.wrStatus d) s =
      .next { s with blk := { s.blk with sticky := s.blk.sticky &&& ~~~(d.extractLsb' 8 6) }, resp := .written }

/-- R84: WR_IRQ_STAT (selector 0x618) clears the event bits written as 1 and changes nothing else, the sticky bits included, in
every state. -/
def Obligations.InterruptStatusWriteClearsEvents : Prop :=
  ∀ (s : State) (d : Word),
    decodeBusop 0x618#11 d = .wrIrqStat d ∧
    exec (.wrIrqStat d) s =
      .next { s with blk := { s.blk with irqStat := s.blk.irqStat &&& ~~~(d.extractLsb' 0 3) }, resp := .written }

/-- R99, R101: a write to a read-only register (ID, VERSION, RESULT, SAMPLE_CNT, WIN_CNT, POWER[j]) or to a reserved offset is
no operation in any state: no WERR, no push, no pop, no counter change. -/
def Obligations.ReadOnlyAndReservedWritesDoNothing : Prop :=
  ∀ (s : State) (off : BitVec 8) (j : Slot) (d : Word),
    (off.toNat % 4 = 0 →
      off.toNat ≤ 0x04 ∨ (0x34 ≤ off.toNat ∧ off.toNat ≤ 0x3C) ∨ (0x80 ≤ off.toNat ∧ off.toNat ≤ 0xBC) ∨
        0xC8 ≤ off.toNat →
      exec (decodeBusop (mkSel true 2#2 off) d) s = .next { s with resp := .written }) ∧
    exec (.wrRoIdVersion off d) s = .next { s with resp := .written } ∧
    exec (.wrRoResult d) s = .next { s with resp := .written } ∧
    exec (.wrRoCounters off d) s = .next { s with resp := .written } ∧
    exec (.wrRoPower j d) s = .next { s with resp := .written } ∧
    exec (.wrRsvdC8 off d) s = .next { s with resp := .written } ∧
    exec (.wrRsvdD0 off d) s = .next { s with resp := .written } ∧
    exec (.wrRsvdE0 off d) s = .next { s with resp := .written }

/-- R37: SYMMAP is the identity after reset, and after WR_SYMMAP<n> outside a run entry 8n + e is bits [4e+3:4e] of the data
while the other eight entries keep their values. -/
def Obligations.SymbolMapEntries : Prop :=
  (∀ g, g < 16 → (State.reset.blk.cfg.symbol g).toNat = g) ∧
  (∀ (s : State) (n : Fin 2) (d : Word), s.blk.stage = .idle ∨ s.blk.stage = .done →
    ∃ t, exec (.wrSymmap n d) s = .next t ∧
      ∀ g, g < 16 → t.blk.cfg.symbol g =
        if g / 8 = n.val then d.extractLsb' (4 * (g % 8)) 4 else s.blk.cfg.symbol g)

/-! ### Commands -/

/-- R102: WR_CMD performs the command its data word selects, whatever the state. -/
def Obligations.CommandWritePerformsItsCommand : Prop :=
  ∀ (s : State) (word : Word), exec (.wrCmd word) s = exec (decode (.cmd32 word)) s ∧ ∃ t, exec (.wrCmd word) s = .next t

/-- R103, R113: a command its table does not allow in STATE, and an invalid command word in every STATE, set CMDERR and
IRQ_STAT.ERR and change nothing else. -/
def Obligations.RefusedCommandsSetCmderrOnly : Prop :=
  (∀ word : Word, 7 ≤ word.toNat → decode (.cmd32 word) = .cmdInvalid word) ∧
  ∀ s : State,
    let refusedState : State :=
      { s with
        blk := { s.blk with sticky := s.blk.sticky ||| 0b010000#6, irqStat := s.blk.irqStat ||| 0b100#3 }, resp := .written }
    (s.blk.stage = .scan ∨ s.blk.stage = .oneshot →
      exec .startScan s = .next refusedState ∧ exec .startOneshot s = .next refusedState) ∧
    (s.blk.stage = .idle ∨ s.blk.stage = .done → exec .endStream s = .next refusedState) ∧
    (∀ word, exec (.cmdInvalid word) s = .next refusedState)

/-- R104, R105, R107, and the start of R108: in IDLE or DONE, a START whose configuration check passes empties the FIFO and
begins a run with the run state at zero; one whose check fails sets CFGERR and IRQ_STAT.ERR. Nothing else changes. -/
def Obligations.StartChecksAndBeginsARun : Prop :=
  decode (.cmd32 1#32) = .startScan ∧ decode (.cmd32 2#32) = .startOneshot ∧
  ∀ s : State, s.blk.stage = .idle ∨ s.blk.stage = .done →
    let n := s.blk.cfg.winLen.toNat
    let st := s.blk.cfg.winStep.toNat
    let windowOk := s.blk.cfg.ctrl.extractLsb' 0 2 ≠ 3#2 ∧ s.par.winMin ≤ n ∧ n ≤ s.par.winMax
    let fresh : Run :=
      { index := 0, samples := [], wcount := 0, dbValid := false, dbLast := 0#4, dbPos := 0, dbGap := false, acc := false }
    let started (st : Stage) : State :=
      { s with blk := { s.blk with stage := st, fifo := [], run := fresh }, resp := .written }
    let failed : State :=
      { s with
        blk := { s.blk with sticky := s.blk.sticky ||| 0b000010#6, irqStat := s.blk.irqStat ||| 0b100#3 }, resp := .written }
    (windowOk ∧ (n + 3) / 4 ≤ st ∧ st ≤ n → exec .startScan s = .next (started .scan)) ∧
    (¬(windowOk ∧ (n + 3) / 4 ≤ st ∧ st ≤ n) → exec .startScan s = .next failed) ∧
    (windowOk → exec .startOneshot s = .next (started .oneshot)) ∧
    (¬windowOk → exec .startOneshot s = .next failed)

/-- R109: END_STREAM in a run drops the open windows, enters DONE and sets IRQ_STAT.DONE; everything else is kept, NOTONES
reads NOT acc; and in every state the invariant admits, a ONESHOT so ended, or a SCAN that absorbed fewer than N samples, reads
NOTONES = 1. -/
def Obligations.EndStreamEntersDone : Prop :=
  decode (.cmd32 3#32) = .endStream ∧
  ∀ s : State, s.blk.stage = .scan ∨ s.blk.stage = .oneshot → ∃ t,
    exec .endStream s = .next t ∧
    t = { s with
      blk := { s.blk with
        stage := .done, run := { s.blk.run with samples := [] }, irqStat := s.blk.irqStat ||| 0b010#3 },
      resp := .written } ∧
    (t.blk.status t.par).getLsbD 4 = !s.blk.run.acc ∧
    (s.Inv → s.blk.stage = .oneshot ∨ s.blk.run.index < s.blk.cfg.winN → (t.blk.status t.par).getLsbD 4 = true)

/-- R110: ABORT in every state drops the open windows and enters IDLE, and everything else is kept; a second ABORT changes
nothing, and NOTONES then reads 0. -/
def Obligations.AbortEntersIdle : Prop :=
  decode (.cmd32 4#32) = .abort ∧
  ∀ s : State, ∃ t,
    exec .abort s = .next t ∧
    t = { s with blk := { s.blk with stage := .idle, run := { s.blk.run with samples := [] } }, resp := .written } ∧
    exec .abort t = .next t ∧ (t.blk.status t.par).getLsbD 4 = false

/-- R106, R111: NOP changes nothing and FLUSH empties the FIFO and changes nothing else, IRQ_STAT.RES and the debounce state
included, in every state. -/
def Obligations.NopAndFlush : Prop :=
  decode (.cmd32 0#32) = .nop ∧ decode (.cmd32 5#32) = .flush ∧
  ∀ s : State,
    exec .nop s = .next { s with resp := .written } ∧
    exec .flush s = .next { s with blk := { s.blk with fifo := [] }, resp := .written }

/-- R114: the complete transition relation of STATE over all instructions. -/
def Obligations.StageTransitions : Prop :=
  ∀ (i : Instr) (s t : State), exec i s = .next t →
    t.blk.stage =
      match i.command with
      | some .startScan =>
        if (s.blk.stage = .idle ∨ s.blk.stage = .done) ∧ cfgOk s.par true s.blk.cfg = true then .scan else s.blk.stage
      | some .startOneshot =>
        if (s.blk.stage = .idle ∨ s.blk.stage = .done) ∧ cfgOk s.par false s.blk.cfg = true then .oneshot else s.blk.stage
      | some .endStream => if s.blk.stage = .scan ∨ s.blk.stage = .oneshot then .done else s.blk.stage
      | some .abort => .idle
      | some .softReset => .idle
      | _ =>
        if s.blk.stage = .oneshot ∧ s.blk.run.index + 1 = s.blk.cfg.winN ∧ (∃ d, i = .wrSample d) then .done
        else s.blk.stage

/-! ### Arithmetic -/

/-- R10: addition, subtraction and multiplication of finite operands are correctly rounded with roundTiesToEven: a result is
the finite datum nearest to the exact one, subnormals included, a tie goes to the even significand, and an overflow is a signed
infinity. The signs and the infinite operands are IEEE 754's (log 9, PRESUMED; R121, R130 and R144 give inf - inf and 0 * inf as
NaN): an exact zero sum or difference is +0 unless both terms are negative zeros, a product of finite operands has the exclusive
or of their signs; an infinite term gives itself, two of opposite signs NaN; a product with an infinite factor is an infinity of
the exclusive or of the signs, and NaN if the other factor is a zero. NaN operands are OnlyTheCanonicalNaNIsProduced. -/
def Obligations.ArithmeticIsCorrectlyRounded : Prop :=
  let inf (negative : Bool) : Word := if negative then 0xFF800000#32 else 0x7F800000#32
  let zero (negative : Bool) : Word := if negative then 0x80000000#32 else 0x00000000#32
  (∀ a b : Word, F32.isFinite a = true → F32.isFinite b = true →
    F32.RoundsTo (F32.value a + F32.value b) (F32.add a b) ∧
    F32.RoundsTo (F32.value a - F32.value b) (F32.sub a b) ∧
    F32.RoundsTo (F32.value a * F32.value b) (F32.mul a b) ∧
    (F32.value a + F32.value b = 0 → F32.add a b = zero (a.getLsbD 31 && b.getLsbD 31)) ∧
    (F32.value a - F32.value b = 0 → F32.sub a b = zero (a.getLsbD 31 && !b.getLsbD 31)) ∧
    (F32.mul a b).getLsbD 31 = (a.getLsbD 31 ^^ b.getLsbD 31)) ∧
  (∀ (s : Bool) (b : Word), F32.isFinite b = true →
    F32.add (inf s) b = inf s ∧ F32.add b (inf s) = inf s ∧ F32.sub (inf s) b = inf s ∧ F32.sub b (inf s) = inf (!s) ∧
    F32.mul (inf s) b = (if F32.value b = 0 then 0x7FC00000#32 else inf (s ^^ b.getLsbD 31)) ∧
    F32.mul b (inf s) = (if F32.value b = 0 then 0x7FC00000#32 else inf (s ^^ b.getLsbD 31))) ∧
  (∀ s t : Bool,
    F32.add (inf s) (inf t) = (if s = t then inf s else 0x7FC00000#32) ∧
    F32.sub (inf s) (inf t) = (if s = t then 0x7FC00000#32 else inf s) ∧
    F32.mul (inf s) (inf t) = inf (s ^^ t))

/-- R10, R67: an operand that is NaN gives the canonical NaN; the only NaN an operation or a power can be is 0x7FC00000; and
after a sample that completes a window, in SCAN or in ONESHOT, every POWER register that is NaN is 0x7FC00000. -/
def Obligations.OnlyTheCanonicalNaNIsProduced : Prop :=
  (∀ a b : Word, F32.isNaN a = true ∨ F32.isNaN b = true →
    F32.add a b = 0x7FC00000#32 ∧ F32.sub a b = 0x7FC00000#32 ∧ F32.mul a b = 0x7FC00000#32) ∧
  (∀ a b : Word,
    (F32.isNaN (F32.add a b) = true → F32.add a b = 0x7FC00000#32) ∧
    (F32.isNaN (F32.sub a b) = true → F32.sub a b = 0x7FC00000#32) ∧
    (F32.isNaN (F32.mul a b) = true → F32.mul a b = 0x7FC00000#32)) ∧
  (∀ (c : Word) (xs : List Word), F32.isNaN (goertzel c xs) = true → goertzel c xs = 0x7FC00000#32) ∧
  (∀ (x : Word) (s t : State), exec (.wrSample x) s = .next t →
    (s.blk.stage = .scan ∧ s.blk.cfg.winN ≤ s.blk.run.index + 1 ∧
        (s.blk.run.index + 1 - s.blk.cfg.winN) % s.blk.cfg.stepS = 0) ∨
      (s.blk.stage = .oneshot ∧ s.blk.run.index + 1 = s.blk.cfg.winN) →
    ∀ j : Slot, F32.isNaN (bankGet t.blk.power j) = true → bankGet t.blk.power j = 0x7FC00000#32)

/-- R11, for every pair of operands: on finite ones gt and ge compare real values (the two zeros are equal); an infinity compares
as greater than every finite value and than the other infinity, or less; every comparison with a NaN is false. -/
def Obligations.ComparisonsAreOfRealValues : Prop :=
  (∀ a b : Word, F32.isFinite a = true → F32.isFinite b = true →
    (F32.gt a b = true ↔ F32.value b < F32.value a) ∧ (F32.ge a b = true ↔ F32.value b ≤ F32.value a)) ∧
  (∀ a : Word, F32.isFinite a = true →
    F32.gt 0x7F800000#32 a = true ∧ F32.ge 0x7F800000#32 a = true ∧
    F32.gt a 0x7F800000#32 = false ∧ F32.ge a 0x7F800000#32 = false ∧
    F32.gt a 0xFF800000#32 = true ∧ F32.ge a 0xFF800000#32 = true ∧
    F32.gt 0xFF800000#32 a = false ∧ F32.ge 0xFF800000#32 a = false) ∧
  (F32.gt 0x7F800000#32 0xFF800000#32 = true ∧ F32.ge 0x7F800000#32 0xFF800000#32 = true ∧
    F32.gt 0xFF800000#32 0x7F800000#32 = false ∧ F32.ge 0xFF800000#32 0x7F800000#32 = false ∧
    F32.gt 0x7F800000#32 0x7F800000#32 = false ∧ F32.ge 0x7F800000#32 0x7F800000#32 = true ∧
    F32.gt 0xFF800000#32 0xFF800000#32 = false ∧ F32.ge 0xFF800000#32 0xFF800000#32 = true) ∧
  (∀ a b : Word, F32.isNaN a = true ∨ F32.isNaN b = true → F32.gt a b = false ∧ F32.ge a b = false)

/-- R121: G(c, xs) is the value of the recurrence s[n] = (x[n] + c*s[n-1]) - s[n-2] from zeros, with `s (n + 2)` standing for
s[n], and of P = (s1*s1 + s2*s2) - (c*s1)*s2, each operation rounded once, in this order. -/
def Obligations.ResonatorPowerRecurrence : Prop :=
  ∀ (c : Word) (xs : List Word), ∃ s : Nat → Word,
    s 0 = 0x00000000#32 ∧ s 1 = 0x00000000#32 ∧
    (∀ n (h : n < xs.length), s (n + 2) = F32.sub (F32.add xs[n] (F32.mul c (s (n + 1)))) (s n)) ∧
    goertzel c xs =
      F32.sub (F32.add (F32.mul (s (xs.length + 1)) (s (xs.length + 1))) (F32.mul (s xs.length) (s xs.length)))
        (F32.mul (F32.mul c (s (xs.length + 1))) (s xs.length))

/-! ### Classification, result word -/

/-- R126: argmax(P, lo, hi) is a slot of lo..hi. If P[lo] is NaN it is lo. Otherwise its power is no NaN, no slot of the range
has a greater one, and every lower slot of the range has a lower one or a NaN. -/
def Obligations.ArgmaxIsTheLowestStrongestSlot : Prop :=
  ∀ (p : Bank) (lo hi : Slot), lo ≤ hi →
    lo ≤ argmax p lo hi ∧ argmax p lo hi ≤ hi ∧
    (F32.isNaN (bankGet p lo) = true → argmax p lo hi = lo) ∧
    (F32.isNaN (bankGet p lo) = false →
      F32.isNaN (bankGet p (argmax p lo hi)) = false ∧
      (∀ j, lo ≤ j → j ≤ hi → F32.gt (bankGet p j) (bankGet p (argmax p lo hi)) = false) ∧
      (∀ j, lo ≤ j → j < argmax p lo hi → F32.ge (bankGet p j) (bankGet p (argmax p lo hi)) = false))

/-- R127-R131: what each mode detects, and nothing else is a detection: DUAL the strongest low and high slots if both exceed
THRESH, BIN the higher of slots 8 and 9 through its gate, TONE the selected slot if it exceeds THRESH. -/
def Obligations.ClassificationByMode : Prop :=
  ∀ (r : Regs) (p : Bank),
    let gt (j k : Slot) := F32.gt (bankGet p j) (bankGet p k)
    let above (j : Slot) := F32.gt (bankGet p j) r.thresh
    let gate (win lose : Slot) :=
      if r.ctrl.getLsbD 2 = false then above win
      else F32.ge (bankGet p win) (F32.mul r.ratio (bankGet p lose))
    let sel : Slot := (r.ctrl.extractLsb' 4 4).toFin
    (r.ctrl.extractLsb' 0 2 = 0#2 →
      classify r p =
        if above (argmax p 0 3) = true ∧ above (argmax p 4 7) = true then
          some (.detect (r.symbol (4 * (argmax p 0 3).val + ((argmax p 4 7).val - 4)))
            (BitVec.ofNat 2 (argmax p 0 3).val) (BitVec.ofNat 2 ((argmax p 4 7).val - 4)))
        else some .none) ∧
    (r.ctrl.extractLsb' 0 2 = 1#2 →
      classify r p =
        if gt 9 8 = true ∧ gate 9 8 = true then some (.detect 1#4 0#2 0#2)
        else if gt 8 9 = true ∧ gate 8 9 = true then some (.detect 0#4 0#2 0#2)
        else some .none) ∧
    (r.ctrl.extractLsb' 0 2 = 2#2 →
      classify r p = if above sel = true then some (.detect (r.ctrl.extractLsb' 4 4) 0#2 0#2) else some .none)

/-- R142 and the NaN corner of R123: a detection's powers strictly exceed THRESH in DUAL, BIN with the absolute gate and TONE,
so a power equal to THRESH is rejected; and in every mode a window whose powers are all NaN detects nothing. -/
def Obligations.ThresholdIsAlwaysReject : Prop :=
  (∀ (r : Regs) (p : Bank) v l h, classify r p = some (.detect v l h) →
    (r.mode = .dual → ∃ jl jh : Slot, jl ≤ 3 ∧ 4 ≤ jh ∧ jh ≤ 7 ∧ l.toNat = jl.val ∧ h.toNat + 4 = jh.val ∧
      F32.gt (bankGet p jl) r.thresh = true ∧ F32.gt (bankGet p jh) r.thresh = true) ∧
    (r.mode = .bin → r.gateMargin = false →
      F32.gt (bankGet p (if v = 1#4 then 9 else 8)) r.thresh = true) ∧
    (r.mode = .tone → F32.gt (bankGet p r.toneSel) r.thresh = true)) ∧
  (∀ t : Word, F32.gt t t = false) ∧
  (∀ (r : Regs) (p : Bank) c, (∀ j, F32.isNaN (bankGet p j) = true) → classify r p = some c → c = .none)

/-- R66, R133: the fields of the result word of window k. -/
def Obligations.ResultWordFields : Prop :=
  ∀ (r : Regs) (k : Nat) (v : BitVec 4) (l h : BitVec 2),
    let d := resultWord r k (.detect v l h)
    let z := resultWord r k .none
    d.getLsbD 0 = true ∧ d.getLsbD 1 = true ∧ d.extractLsb' 2 2 = r.ctrl.extractLsb' 0 2 ∧ d.extractLsb' 4 4 = v ∧
    d.extractLsb' 8 2 = l ∧ d.extractLsb' 10 2 = h ∧ d.extractLsb' 12 4 = 0#4 ∧
    (d.extractLsb' 16 16).toNat = k % 2 ^ 16 ∧
    z.getLsbD 0 = true ∧ z.getLsbD 1 = false ∧ z.extractLsb' 2 2 = r.ctrl.extractLsb' 0 2 ∧ z.extractLsb' 4 8 = 0#8 ∧
    z.extractLsb' 12 4 = 0#4 ∧ (z.extractLsb' 16 16).toNat = k % 2 ^ 16

/-! ### The sample path -/

/-- R120, R139: in SCAN, with S >= 1, absorbing index i completes window k iff i = k*S + N - 1, so at most one; in ONESHOT it
completes window 0 iff i = N - 1. -/
def Obligations.WindowCompletesAtItsLastSample : Prop :=
  (∀ n s i k : Nat, 1 ≤ s → 1 ≤ n → (completedWindow .scan n s i = some k ↔ i = k * s + n - 1)) ∧
  (∀ n s i k : Nat, 1 ≤ n → (completedWindow .oneshot n s i = some k ↔ k = 0 ∧ i = n - 1))

/-- R115 outside a run: the sample is discarded, SERR and IRQ_STAT.ERR are set, and nothing else changes. -/
def Obligations.SampleOutsideARunIsRefused : Prop :=
  ∀ (s : State) (x : Word), s.blk.stage = .idle ∨ s.blk.stage = .done →
    exec (.wrSample x) s =
      .next { s with
        blk := { s.blk with sticky := s.blk.sticky ||| 0b001000#6, irqStat := s.blk.irqStat ||| 0b100#3 },
        resp := .written }

/-- R115, R120 in a run, where the sample completes no window: it is kept, `i` advances, and nothing else changes. -/
def Obligations.SampleInsideAWindowIsAbsorbed : Prop :=
  ∀ (s : State) (x : Word),
    let n := s.blk.cfg.winN
    let i := s.blk.run.index
    (s.blk.stage = .scan ∧ (i + 1 < n ∨ (i + 1 - n) % s.blk.cfg.stepS ≠ 0)) ∨ (s.blk.stage = .oneshot ∧ i + 1 ≠ n) →
    exec (.wrSample x) s =
      .next { s with
        blk := { s.blk with run := { s.blk.run with index := i + 1, samples := s.blk.run.samples ++ [x] } },
        resp := .written }

/-- R122-R125, R134, R136, R169 for a SCAN window that classifies as NONE: the powers of the window's N samples are latched,
NANSEEN is set iff one is NaN, wcount advances, the gap is set, and nothing else changes: no word, no event, no other flag, no
acc. R136 says that the samples before pos(k+1) may be dropped: that the window is the last N kept samples and that its first S
are dropped is the model's choice (log 10), stated here in every state; under State.Inv it is R117's window. -/
def Obligations.SilentScanWindow : Prop :=
  ∀ (s : State) (x : Word),
    let b := s.blk
    let n := b.cfg.winN
    let i := b.run.index
    let xs := lastSamples n (b.run.samples ++ [x])
    b.stage = .scan → n ≤ i + 1 → (i + 1 - n) % b.cfg.stepS = 0 →
    classify b.cfg (powers b.cfg.coef xs) = some .none →
    ∃ p : Bank, (∀ j, bankGet p j = goertzel (bankGet b.cfg.coef j) xs) ∧
      exec (.wrSample x) s =
        .next { s with
          blk := { b with
            power := p,
            sticky := if ∃ j, F32.isNaN (bankGet p j) = true then b.sticky ||| 0b100000#6 else b.sticky,
            run := { b.run with
              index := i + 1, samples := xs.drop b.cfg.stepS, wcount := b.run.wcount + 1, dbGap := true } },
          resp := .written }

/-- R122-R125, R132-R136 for a SCAN window k that classifies as DETECT(v, l, h): besides what a silent window does to the
powers, NANSEEN, wcount and the samples, acc is set, the detection becomes the last one, and iff debounce does not suppress it
its word is pushed: a full FIFO drops it with OVF and IRQ_STAT.ERR, else it enters at the tail and sets IRQ_STAT.RES. Nothing
else changes. The window as the last N kept samples and the drop of its first S are the model's choice (log 10; R136 says "may"),
stated here in every state. -/
def Obligations.DetectingScanWindow : Prop :=
  ∀ (s : State) (x : Word) (v : BitVec 4) (l h : BitVec 2),
    let b := s.blk
    let n := b.cfg.winN
    let i := b.run.index
    let k := (i + 1 - n) / b.cfg.stepS
    let pos := k * b.cfg.stepS
    let xs := lastSamples n (b.run.samples ++ [x])
    let suppress := b.cfg.ctrl.getLsbD 3 = true ∧ b.run.dbValid = true ∧ v = b.run.dbLast ∧ b.run.dbGap = false ∧
      pos ≤ b.run.dbPos + b.cfg.dbGuard.toNat
    let full := b.fifo.length = s.par.rfifoDepth
    b.stage = .scan → n ≤ i + 1 → (i + 1 - n) % b.cfg.stepS = 0 →
    classify b.cfg (powers b.cfg.coef xs) = some (.detect v l h) →
    ∃ p : Bank, (∀ j, bankGet p j = goertzel (bankGet b.cfg.coef j) xs) ∧
      let sticky1 := if ∃ j, F32.isNaN (bankGet p j) = true then b.sticky ||| 0b100000#6 else b.sticky
      let b1 : Block := { b with
        power := p,
        sticky := sticky1,
        run := { b.run with
          index := i + 1, samples := xs.drop b.cfg.stepS, wcount := b.run.wcount + 1,
          dbValid := true, dbLast := v, dbPos := pos, dbGap := false, acc := true } }
      (suppress → exec (.wrSample x) s = .next { s with blk := b1, resp := .written }) ∧
      (¬suppress → ¬full → exec (.wrSample x) s =
        .next { s with
          blk := { b1 with
            fifo := b.fifo ++ [resultWord b.cfg k (.detect v l h)], irqStat := b.irqStat ||| 0b001#3 },
          resp := .written }) ∧
      (¬suppress → full → exec (.wrSample x) s =
        .next { s with
          blk := { b1 with sticky := sticky1 ||| 0b000001#6, irqStat := b.irqStat ||| 0b100#3 },
          resp := .written })

/-- R118, R122-R125, R132, R137: the N-th sample of a ONESHOT evaluates window 0, posts its word whether or not it detected
(dropped with OVF and IRQ_STAT.ERR if the FIFO is full), with no debounce, empties the samples and enters DONE with
IRQ_STAT.DONE. Nothing else changes. The window as the last N kept samples is the model's choice (log 10), stated here in every
state; under State.Inv it is R118's window. -/
def Obligations.OneshotCompletes : Prop :=
  ∀ (s : State) (x : Word) (c : WindowClass),
    let b := s.blk
    let n := b.cfg.winN
    let i := b.run.index
    let xs := lastSamples n (b.run.samples ++ [x])
    let full := b.fifo.length = s.par.rfifoDepth
    b.stage = .oneshot → i + 1 = n → classify b.cfg (powers b.cfg.coef xs) = some c →
    ∃ p : Bank, (∀ j, bankGet p j = goertzel (bankGet b.cfg.coef j) xs) ∧
      let sticky1 := if ∃ j, F32.isNaN (bankGet p j) = true then b.sticky ||| 0b100000#6 else b.sticky
      let b1 : Block := { b with
        stage := .done,
        power := p,
        run := { b.run with
          index := i + 1, samples := [], wcount := b.run.wcount + 1,
          acc := b.run.acc || decide (c ≠ .none) } }
      (¬full → exec (.wrSample x) s =
        .next { s with
          blk := { b1 with
            sticky := sticky1, fifo := b.fifo ++ [resultWord b.cfg 0 c], irqStat := b.irqStat ||| 0b011#3 },
          resp := .written }) ∧
      (full → exec (.wrSample x) s =
        .next { s with
          blk := { b1 with sticky := sticky1 ||| 0b000001#6, irqStat := b.irqStat ||| 0b110#3 },
          resp := .written })

/-- R143 (which the spec derives from R134), and R134's "exactly S apart": in a SCAN state the invariant admits, with DB_EN = 1
and DB_GUARD >= S, a detection of the same VALUE as the last, with no gap since, is not emitted; after a gap, of another VALUE,
as the first of the run, or with DB_GUARD < S, it is emitted: its word enters the FIFO if there is room, with WIDX the number of
windows completed before. That the window is the kept samples with the new one is log 10's. -/
def Obligations.DebounceIdempotence : Prop :=
  ∀ (s : State) (x : Word) (v : BitVec 4) (l h : BitVec 2),
    let b := s.blk
    let n := b.cfg.winN
    let i := b.run.index
    s.Inv → b.stage = .scan → n ≤ i + 1 → (i + 1 - n) % b.cfg.stepS = 0 →
    classify b.cfg (powers b.cfg.coef (b.run.samples ++ [x])) = some (.detect v l h) →
    b.cfg.dbEn = true →
    ∃ t, exec (.wrSample x) s = .next t ∧
      (b.cfg.stepS ≤ b.cfg.dbGuard.toNat → b.run.dbValid = true → b.run.dbLast = v → b.run.dbGap = false →
        t.blk.fifo = b.fifo ∧ t.blk.flag .ovf = b.flag .ovf) ∧
      (b.cfg.dbGuard.toNat < b.cfg.stepS ∨ b.run.dbValid = false ∨ b.run.dbLast ≠ v ∨ b.run.dbGap = true →
        b.fifo.length < s.par.rfifoDepth →
        t.blk.fifo = b.fifo ++ [resultWord b.cfg b.run.wcount (.detect v l h)])

/-- R139: one operation adds at most one word to the FIFO, and only a WR_SAMPLE adds one; otherwise the FIFO is unchanged, has
lost its oldest word, or is empty. -/
def Obligations.AtMostOneResultPerOperation : Prop :=
  ∀ (i : Instr) (s t : State), exec i s = .next t →
    t.blk.fifo = s.blk.fifo ∨
    (i = .rdResult ∧ t.blk.fifo = s.blk.fifo.tail) ∨
    (t.blk.fifo = [] ∧
      (i.command = some .flush ∨ i.command = some .softReset ∨ i.command = some .startScan ∨
        i.command = some .startOneshot)) ∨
    ((∃ x, i = .wrSample x) ∧ s.blk.fifo.length ≠ s.par.rfifoDepth ∧ ∃ w, t.blk.fifo = s.blk.fifo ++ [w])

/-! ### Whole-machine rules -/

/-- R43, R158: no operation clears a sticky bit or an event bit but the W1C write to its register and SOFT_RESET. -/
def Obligations.FlagsAreClearedByTheirW1cOnly : Prop :=
  ∀ (i : Instr) (s t : State), exec i s = .next t → i.command ≠ some .softReset →
    ((∀ d, i ≠ .wrStatus d) → ∀ e : ErrBit, s.blk.flag e = true → t.blk.flag e = true) ∧
    ((∀ d, i ≠ .wrIrqStat d) → ∀ e : Event, s.blk.pending e = true → t.blk.pending e = true)

/-- R153, R154: the operations that can set each sticky bit, in which STATE; and every cause but NANSEEN sets IRQ_STAT.ERR with
it. -/
def Obligations.ErrorCauses : Prop :=
  ∀ (i : Instr) (s t : State) (e : ErrBit), exec i s = .next t → s.blk.flag e = false → t.blk.flag e = true →
    (match e with
      | .ovf => (∃ x, i = .wrSample x) ∧ s.blk.running = true ∧ s.blk.fifo.length = s.par.rfifoDepth
      | .cfgerr =>
        s.blk.running = false ∧
        ((i.command = some .startScan ∧ cfgOk s.par true s.blk.cfg = false) ∨
          (i.command = some .startOneshot ∧ cfgOk s.par false s.blk.cfg = false))
      | .werr => i.isLockedWrite = true ∧ s.blk.running = true
      | .serr => (∃ x, i = .wrSample x) ∧ s.blk.running = false
      | .cmderr => ∃ c, i.command = some c ∧ allowed c s.blk.stage = false
      | .nanseen => (∃ x, i = .wrSample x) ∧ s.blk.running = true ∧ ∃ j, F32.isNaN (bankGet t.blk.power j) = true) ∧
    (e ≠ .nanseen → t.blk.pending .err = true)

/-- R56: a run's configuration is the one present at START: while running, no operation but SOFT_RESET changes a configuration
register. -/
def Obligations.ConfigurationIsConstantDuringARun : Prop :=
  ∀ (i : Instr) (s t : State), exec i s = .next t → s.blk.running = true →
    t.blk.cfg = s.blk.cfg ∨ i.command = some .softReset

/-- R36, R25-R42 by frame: POWER changes only by a WR_SAMPLE in a run or SOFT_RESET; IRQ_EN only by WR_IRQ_EN or SOFT_RESET;
the run state only by a WR_SAMPLE in a run or a command; and no operation changes the parameters, the pending host operations
or the count of draws (the model's own fields, logs 1, 3 and 5). -/
def Obligations.WhoWritesWhat : Prop :=
  ∀ (i : Instr) (s t : State), exec i s = .next t →
    (t.blk.power = s.blk.power ∨ ((∃ x, i = .wrSample x) ∧ s.blk.running = true) ∨ i.command = some .softReset) ∧
    (t.blk.irqEn = s.blk.irqEn ∨ (∃ d, i = .wrIrqEn d) ∨ i.command = some .softReset) ∧
    (t.blk.cfg = s.blk.cfg ∨ i.isLockedWrite = true ∨ i.command = some .softReset) ∧
    (t.blk.run = s.blk.run ∨ ((∃ x, i = .wrSample x) ∧ s.blk.running = true) ∨ i.command ≠ none) ∧
    t.par = s.par ∧ t.host = s.host ∧ t.draws = s.draws

/-- R115, R120, R148, R149, R172, in three cases no two of which meet: a WR_SAMPLE in a run advances the sample index by one and,
iff it completes a window, the window count by one; SOFT_RESET and a successful START (not running, `cfg_ok` passed) clear both;
every other operation that completes keeps both, a refused sample or START, END_STREAM and ABORT among them. -/
def Obligations.CountersMoveOnlyWithSamples : Prop :=
  ∀ (i : Instr) (s t : State), exec i s = .next t →
    let absorbed := (∃ x, i = .wrSample x) ∧ (s.blk.stage = .scan ∨ s.blk.stage = .oneshot)
    let cleared := i.command = some .softReset ∨
      ((s.blk.stage = .idle ∨ s.blk.stage = .done) ∧
        ((i.command = some .startScan ∧ cfgOk s.par true s.blk.cfg = true) ∨
          (i.command = some .startOneshot ∧ cfgOk s.par false s.blk.cfg = true)))
    let completing := (s.blk.stage = .scan ∧ s.blk.cfg.winN ≤ s.blk.run.index + 1 ∧
        (s.blk.run.index + 1 - s.blk.cfg.winN) % s.blk.cfg.stepS = 0) ∨
      (s.blk.stage = .oneshot ∧ s.blk.run.index + 1 = s.blk.cfg.winN)
    (absorbed → t.blk.run.index = s.blk.run.index + 1 ∧
      (completing → t.blk.run.wcount = s.blk.run.wcount + 1) ∧
      (¬ completing → t.blk.run.wcount = s.blk.run.wcount)) ∧
    (cleared → t.blk.run.index = 0 ∧ t.blk.run.wcount = 0) ∧
    (¬ absorbed → ¬ cleared → t.blk.run.index = s.blk.run.index ∧ t.blk.run.wcount = s.blk.run.wcount)

/-- R44: `irq` is 1 iff some event bit and its enable bit are both 1, in every state, so it follows every operation; it is 0
after reset. -/
def Obligations.InterruptLevel : Prop :=
  State.reset.blk.irq = false ∧
  ∀ b : Block, b.irq = true ↔ ∃ k, k < 3 ∧ b.irqStat.getLsbD k = true ∧ b.irqEn.getLsbD k = true

/-! ### The invariant -/

/-- The invariant holds at reset. -/
def Obligations.InvariantHoldsAtReset : Prop := State.reset.Inv

/-- Every step keeps the invariant, from every state that meets it. -/
def Obligations.InvariantIsKept : Prop :=
  ∀ s t : State, s.Inv → step s = .next t → t.Inv

/-- R152: the block never stops: every instruction completes in every state with MODE not 3, every instruction but WR_SAMPLE
completes in every state, and every step completes from every state the invariant admits, so the one fault of the model is
raised in no such state. It is raised where a sample completes a window in a run with MODE = 3, which R125 says cannot occur
(the model's choice, log 4). -/
def Obligations.EveryOperationCompletes : Prop :=
  (∀ (i : Instr) (s : State), s.blk.cfg.mode ≠ .invalid → ∃ t, exec i s = .next t) ∧
  (∀ (i : Instr) (s : State), (∀ x, i ≠ .wrSample x) → ∃ t, exec i s = .next t) ∧
  (∀ s : State, s.Inv → ∃ t, step s = .next t) ∧
  (∀ (x : Word) (s : State),
    s.blk.cfg.mode = .invalid →
    (s.blk.stage = .scan ∧ s.blk.cfg.winN ≤ s.blk.run.index + 1 ∧
        (s.blk.run.index + 1 - s.blk.cfg.winN) % s.blk.cfg.stepS = 0) ∨
      (s.blk.stage = .oneshot ∧ s.blk.run.index + 1 = s.blk.cfg.winN) →
    exec (.wrSample x) s = .fault .modeInvalidInRun)

/-- R119, R140, R141 and R149's formula (inferences the spec marks as derived): in a SCAN state the invariant admits, WIN_CNT
before wrapping is R149's formula, at most N - 1 samples are kept, and at most ceil(N/S) <= 4 windows are open (started and not
complete). That exactly as many samples are kept as there are from pos(wcount) on is the model's choice (log 10). -/
def Obligations.ScanBounds : Prop :=
  ∀ s : State, s.Inv → s.blk.stage = .scan →
    let n := s.blk.cfg.winN
    let st := s.blk.cfg.stepS
    let i := s.blk.run.index
    1 ≤ st ∧ st ≤ n ∧
    s.blk.run.wcount = (if i < n then 0 else (i - n) / st + 1) ∧
    s.blk.run.samples.length ≤ n - 1 ∧
    s.blk.run.wcount * st + s.blk.run.samples.length = i ∧
    (n + st - 1) / st ≤ 4 ∧
    (∀ k, k * st < i → i < k * st + n → s.blk.run.wcount ≤ k ∧ k < s.blk.run.wcount + (n + st - 1) / st)
end

