-- ==== Sys2Proof/Laws/State.lean ====
section
/-! SUPPORT. One lemma per field per named update of the state (Machine/State.lean), so that no proof unfolds a record update. -/

namespace Sys2Proof.Machine

/-! ### State.setBlk -/

@[simp] theorem State.setBlk_blk (s : State) (v) : (s.setBlk v).blk = v := rfl
@[simp] theorem State.setBlk_par (s : State) (v) : (s.setBlk v).par = s.par := rfl
@[simp] theorem State.setBlk_host (s : State) (v) : (s.setBlk v).host = s.host := rfl
@[simp] theorem State.setBlk_resp (s : State) (v) : (s.setBlk v).resp = s.resp := rfl
@[simp] theorem State.setBlk_draws (s : State) (v) : (s.setBlk v).draws = s.draws := rfl

/-! ### State.setHost -/

@[simp] theorem State.setHost_blk (s : State) (v) : (s.setHost v).blk = s.blk := rfl
@[simp] theorem State.setHost_par (s : State) (v) : (s.setHost v).par = s.par := rfl
@[simp] theorem State.setHost_host (s : State) (v) : (s.setHost v).host = v := rfl
@[simp] theorem State.setHost_resp (s : State) (v) : (s.setHost v).resp = s.resp := rfl
@[simp] theorem State.setHost_draws (s : State) (v) : (s.setHost v).draws = s.draws := rfl

/-! ### State.setResp -/

@[simp] theorem State.setResp_blk (s : State) (v) : (s.setResp v).blk = s.blk := rfl
@[simp] theorem State.setResp_par (s : State) (v) : (s.setResp v).par = s.par := rfl
@[simp] theorem State.setResp_host (s : State) (v) : (s.setResp v).host = s.host := rfl
@[simp] theorem State.setResp_resp (s : State) (v) : (s.setResp v).resp = v := rfl
@[simp] theorem State.setResp_draws (s : State) (v) : (s.setResp v).draws = s.draws := rfl

/-! ### State.drawn -/

@[simp] theorem State.drawn_blk (s : State) : s.drawn.blk = s.blk := rfl
@[simp] theorem State.drawn_par (s : State) : s.drawn.par = s.par := rfl
@[simp] theorem State.drawn_host (s : State) : s.drawn.host = s.host := rfl
@[simp] theorem State.drawn_resp (s : State) : s.drawn.resp = s.resp := rfl
@[simp] theorem State.drawn_draws (s : State) : s.drawn.draws = s.draws + 1 := rfl

/-! ### Block.setStage -/

@[simp] theorem Block.setStage_stage (b : Block) (v) : (b.setStage v).stage = v := rfl
@[simp] theorem Block.setStage_cfg (b : Block) (v) : (b.setStage v).cfg = b.cfg := rfl
@[simp] theorem Block.setStage_irqEn (b : Block) (v) : (b.setStage v).irqEn = b.irqEn := rfl
@[simp] theorem Block.setStage_irqStat (b : Block) (v) : (b.setStage v).irqStat = b.irqStat := rfl
@[simp] theorem Block.setStage_sticky (b : Block) (v) : (b.setStage v).sticky = b.sticky := rfl
@[simp] theorem Block.setStage_fifo (b : Block) (v) : (b.setStage v).fifo = b.fifo := rfl
@[simp] theorem Block.setStage_power (b : Block) (v) : (b.setStage v).power = b.power := rfl
@[simp] theorem Block.setStage_run (b : Block) (v) : (b.setStage v).run = b.run := rfl

/-! ### Block.setCfg -/

@[simp] theorem Block.setCfg_stage (b : Block) (v) : (b.setCfg v).stage = b.stage := rfl
@[simp] theorem Block.setCfg_cfg (b : Block) (v) : (b.setCfg v).cfg = v := rfl
@[simp] theorem Block.setCfg_irqEn (b : Block) (v) : (b.setCfg v).irqEn = b.irqEn := rfl
@[simp] theorem Block.setCfg_irqStat (b : Block) (v) : (b.setCfg v).irqStat = b.irqStat := rfl
@[simp] theorem Block.setCfg_sticky (b : Block) (v) : (b.setCfg v).sticky = b.sticky := rfl
@[simp] theorem Block.setCfg_fifo (b : Block) (v) : (b.setCfg v).fifo = b.fifo := rfl
@[simp] theorem Block.setCfg_power (b : Block) (v) : (b.setCfg v).power = b.power := rfl
@[simp] theorem Block.setCfg_run (b : Block) (v) : (b.setCfg v).run = b.run := rfl

/-! ### Block.setIrqEn -/

@[simp] theorem Block.setIrqEn_stage (b : Block) (v) : (b.setIrqEn v).stage = b.stage := rfl
@[simp] theorem Block.setIrqEn_cfg (b : Block) (v) : (b.setIrqEn v).cfg = b.cfg := rfl
@[simp] theorem Block.setIrqEn_irqEn (b : Block) (v) : (b.setIrqEn v).irqEn = v := rfl
@[simp] theorem Block.setIrqEn_irqStat (b : Block) (v) : (b.setIrqEn v).irqStat = b.irqStat := rfl
@[simp] theorem Block.setIrqEn_sticky (b : Block) (v) : (b.setIrqEn v).sticky = b.sticky := rfl
@[simp] theorem Block.setIrqEn_fifo (b : Block) (v) : (b.setIrqEn v).fifo = b.fifo := rfl
@[simp] theorem Block.setIrqEn_power (b : Block) (v) : (b.setIrqEn v).power = b.power := rfl
@[simp] theorem Block.setIrqEn_run (b : Block) (v) : (b.setIrqEn v).run = b.run := rfl

/-! ### Block.setIrqStat -/

@[simp] theorem Block.setIrqStat_stage (b : Block) (v) : (b.setIrqStat v).stage = b.stage := rfl
@[simp] theorem Block.setIrqStat_cfg (b : Block) (v) : (b.setIrqStat v).cfg = b.cfg := rfl
@[simp] theorem Block.setIrqStat_irqEn (b : Block) (v) : (b.setIrqStat v).irqEn = b.irqEn := rfl
@[simp] theorem Block.setIrqStat_irqStat (b : Block) (v) : (b.setIrqStat v).irqStat = v := rfl
@[simp] theorem Block.setIrqStat_sticky (b : Block) (v) : (b.setIrqStat v).sticky = b.sticky := rfl
@[simp] theorem Block.setIrqStat_fifo (b : Block) (v) : (b.setIrqStat v).fifo = b.fifo := rfl
@[simp] theorem Block.setIrqStat_power (b : Block) (v) : (b.setIrqStat v).power = b.power := rfl
@[simp] theorem Block.setIrqStat_run (b : Block) (v) : (b.setIrqStat v).run = b.run := rfl

/-! ### Block.setSticky -/

@[simp] theorem Block.setSticky_stage (b : Block) (v) : (b.setSticky v).stage = b.stage := rfl
@[simp] theorem Block.setSticky_cfg (b : Block) (v) : (b.setSticky v).cfg = b.cfg := rfl
@[simp] theorem Block.setSticky_irqEn (b : Block) (v) : (b.setSticky v).irqEn = b.irqEn := rfl
@[simp] theorem Block.setSticky_irqStat (b : Block) (v) : (b.setSticky v).irqStat = b.irqStat := rfl
@[simp] theorem Block.setSticky_sticky (b : Block) (v) : (b.setSticky v).sticky = v := rfl
@[simp] theorem Block.setSticky_fifo (b : Block) (v) : (b.setSticky v).fifo = b.fifo := rfl
@[simp] theorem Block.setSticky_power (b : Block) (v) : (b.setSticky v).power = b.power := rfl
@[simp] theorem Block.setSticky_run (b : Block) (v) : (b.setSticky v).run = b.run := rfl

/-! ### Block.setFifo -/

@[simp] theorem Block.setFifo_stage (b : Block) (v) : (b.setFifo v).stage = b.stage := rfl
@[simp] theorem Block.setFifo_cfg (b : Block) (v) : (b.setFifo v).cfg = b.cfg := rfl
@[simp] theorem Block.setFifo_irqEn (b : Block) (v) : (b.setFifo v).irqEn = b.irqEn := rfl
@[simp] theorem Block.setFifo_irqStat (b : Block) (v) : (b.setFifo v).irqStat = b.irqStat := rfl
@[simp] theorem Block.setFifo_sticky (b : Block) (v) : (b.setFifo v).sticky = b.sticky := rfl
@[simp] theorem Block.setFifo_fifo (b : Block) (v) : (b.setFifo v).fifo = v := rfl
@[simp] theorem Block.setFifo_power (b : Block) (v) : (b.setFifo v).power = b.power := rfl
@[simp] theorem Block.setFifo_run (b : Block) (v) : (b.setFifo v).run = b.run := rfl

/-! ### Block.setPower -/

@[simp] theorem Block.setPower_stage (b : Block) (v) : (b.setPower v).stage = b.stage := rfl
@[simp] theorem Block.setPower_cfg (b : Block) (v) : (b.setPower v).cfg = b.cfg := rfl
@[simp] theorem Block.setPower_irqEn (b : Block) (v) : (b.setPower v).irqEn = b.irqEn := rfl
@[simp] theorem Block.setPower_irqStat (b : Block) (v) : (b.setPower v).irqStat = b.irqStat := rfl
@[simp] theorem Block.setPower_sticky (b : Block) (v) : (b.setPower v).sticky = b.sticky := rfl
@[simp] theorem Block.setPower_fifo (b : Block) (v) : (b.setPower v).fifo = b.fifo := rfl
@[simp] theorem Block.setPower_power (b : Block) (v) : (b.setPower v).power = v := rfl
@[simp] theorem Block.setPower_run (b : Block) (v) : (b.setPower v).run = b.run := rfl

/-! ### Block.setRun -/

@[simp] theorem Block.setRun_stage (b : Block) (v) : (b.setRun v).stage = b.stage := rfl
@[simp] theorem Block.setRun_cfg (b : Block) (v) : (b.setRun v).cfg = b.cfg := rfl
@[simp] theorem Block.setRun_irqEn (b : Block) (v) : (b.setRun v).irqEn = b.irqEn := rfl
@[simp] theorem Block.setRun_irqStat (b : Block) (v) : (b.setRun v).irqStat = b.irqStat := rfl
@[simp] theorem Block.setRun_sticky (b : Block) (v) : (b.setRun v).sticky = b.sticky := rfl
@[simp] theorem Block.setRun_fifo (b : Block) (v) : (b.setRun v).fifo = b.fifo := rfl
@[simp] theorem Block.setRun_power (b : Block) (v) : (b.setRun v).power = b.power := rfl
@[simp] theorem Block.setRun_run (b : Block) (v) : (b.setRun v).run = v := rfl

end Sys2Proof.Machine
end

