-- ==== Sys2Proof/Laws/Ops.lean ====
section
/-! SUPPORT. For each shared operation (Machine/Flags.lean, Machine/Ops.lean) what it does to each field, and one lemma that says
every way it can come out. -/

namespace Sys2Proof.Machine

/-! ### Responses -/

@[simp] theorem State.answer_blk (s : State) (w) : (s.answer w).blk = s.blk := rfl
@[simp] theorem State.answer_par (s : State) (w) : (s.answer w).par = s.par := rfl
@[simp] theorem State.answer_host (s : State) (w) : (s.answer w).host = s.host := rfl
@[simp] theorem State.answer_draws (s : State) (w) : (s.answer w).draws = s.draws := rfl
@[simp] theorem State.answer_resp (s : State) (w) : (s.answer w).resp = .data w := rfl

@[simp] theorem State.written_blk (s : State) (b) : (s.written b).blk = b := rfl
@[simp] theorem State.written_par (s : State) (b) : (s.written b).par = s.par := rfl
@[simp] theorem State.written_host (s : State) (b) : (s.written b).host = s.host := rfl
@[simp] theorem State.written_draws (s : State) (b) : (s.written b).draws = s.draws := rfl
@[simp] theorem State.written_resp (s : State) (b) : (s.written b).resp = .written := rfl

@[simp] theorem State.busError_blk (s : State) (o) : (s.busError o).blk = s.blk := rfl
@[simp] theorem State.busError_par (s : State) (o) : (s.busError o).par = s.par := rfl
@[simp] theorem State.busError_host (s : State) (o) : (s.busError o).host = s.host := rfl
@[simp] theorem State.busError_draws (s : State) (o) : (s.busError o).draws = s.draws := rfl
@[simp] theorem State.busError_resp (s : State) (o) : (s.busError o).resp = .busError o := rfl

@[simp] theorem State.resetBlock_blk (s : State) : s.resetBlock.blk = Block.reset := rfl
@[simp] theorem State.resetBlock_par (s : State) : s.resetBlock.par = s.par := rfl
@[simp] theorem State.resetBlock_host (s : State) : s.resetBlock.host = s.host := rfl
@[simp] theorem State.resetBlock_resp (s : State) : s.resetBlock.resp = s.resp := rfl
@[simp] theorem State.resetBlock_draws (s : State) : s.resetBlock.draws = s.draws := rfl

/-! ### Events and errors -/

@[simp] theorem Block.event_stage (b : Block) (e) : (b.event e).stage = b.stage := rfl
@[simp] theorem Block.event_cfg (b : Block) (e) : (b.event e).cfg = b.cfg := rfl
@[simp] theorem Block.event_irqEn (b : Block) (e) : (b.event e).irqEn = b.irqEn := rfl
@[simp] theorem Block.event_irqStat (b : Block) (e) : (b.event e).irqStat = b.irqStat ||| e.mask := rfl
@[simp] theorem Block.event_sticky (b : Block) (e) : (b.event e).sticky = b.sticky := rfl
@[simp] theorem Block.event_fifo (b : Block) (e) : (b.event e).fifo = b.fifo := rfl
@[simp] theorem Block.event_power (b : Block) (e) : (b.event e).power = b.power := rfl
@[simp] theorem Block.event_run (b : Block) (e) : (b.event e).run = b.run := rfl

@[simp] theorem Block.raise_stage (b : Block) (e) : (b.raise e).stage = b.stage := by cases e <;> rfl
@[simp] theorem Block.raise_cfg (b : Block) (e) : (b.raise e).cfg = b.cfg := by cases e <;> rfl
@[simp] theorem Block.raise_irqEn (b : Block) (e) : (b.raise e).irqEn = b.irqEn := by cases e <;> rfl
@[simp] theorem Block.raise_sticky (b : Block) (e) : (b.raise e).sticky = b.sticky ||| e.mask := by cases e <;> rfl
@[simp] theorem Block.raise_fifo (b : Block) (e) : (b.raise e).fifo = b.fifo := by cases e <;> rfl
@[simp] theorem Block.raise_power (b : Block) (e) : (b.raise e).power = b.power := by cases e <;> rfl
@[simp] theorem Block.raise_run (b : Block) (e) : (b.raise e).run = b.run := by cases e <;> rfl
@[simp] theorem Block.raise_nanseen_irqStat (b : Block) : (b.raise .nanseen).irqStat = b.irqStat := rfl

/-- Every cause but NANSEEN sets IRQ_STAT.ERR (R153). -/
theorem Block.raise_irqStat (b : Block) {e : ErrBit} (h : e ≠ .nanseen) :
    (b.raise e).irqStat = b.irqStat ||| Event.err.mask := by
  cases e <;> first | rfl | exact absurd rfl h

/-- A sticky mask has its own bit only. -/
@[simp] theorem ErrBit.mask_bit (e f : ErrBit) : e.mask.getLsbD f.place = decide (e = f) := by
  cases e <;> cases f <;> rfl

/-- An event mask has its own bit only. -/
@[simp] theorem Event.mask_bit (e f : Event) : e.mask.getLsbD f.place = decide (e = f) := by
  cases e <;> cases f <;> rfl

/-- `set_sticky(F)` sets F and leaves every other sticky bit. -/
@[simp] theorem Block.raise_flag (b : Block) (e f : ErrBit) : (b.raise e).flag f = (b.flag f || decide (e = f)) := by
  simp [Block.flag]

/-- `set_sticky(F)` sets ERR for every F but NANSEEN and leaves every other event. -/
@[simp] theorem Block.raise_pending (b : Block) (e : ErrBit) (f : Event) :
    (b.raise e).pending f = (b.pending f || (decide (e ≠ .nanseen) && decide (f = .err))) := by
  by_cases h : e = .nanseen
  · subst h; simp [Block.pending]
  · simp [Block.pending, Block.raise_irqStat b h, h, eq_comm]

@[simp] theorem Block.event_flag (b : Block) (e : Event) (f : ErrBit) : (b.event e).flag f = b.flag f := rfl

@[simp] theorem Block.event_pending (b : Block) (e f : Event) :
    (b.event e).pending f = (b.pending f || decide (e = f)) := by
  simp [Block.pending]

/-! ### Write-one-to-clear -/

@[simp] theorem Block.clearSticky_stage (b : Block) (m) : (b.clearSticky m).stage = b.stage := rfl
@[simp] theorem Block.clearSticky_cfg (b : Block) (m) : (b.clearSticky m).cfg = b.cfg := rfl
@[simp] theorem Block.clearSticky_irqEn (b : Block) (m) : (b.clearSticky m).irqEn = b.irqEn := rfl
@[simp] theorem Block.clearSticky_irqStat (b : Block) (m) : (b.clearSticky m).irqStat = b.irqStat := rfl
@[simp] theorem Block.clearSticky_fifo (b : Block) (m) : (b.clearSticky m).fifo = b.fifo := rfl
@[simp] theorem Block.clearSticky_power (b : Block) (m) : (b.clearSticky m).power = b.power := rfl
@[simp] theorem Block.clearSticky_run (b : Block) (m) : (b.clearSticky m).run = b.run := rfl

@[simp] theorem Block.clearEvents_stage (b : Block) (m) : (b.clearEvents m).stage = b.stage := rfl
@[simp] theorem Block.clearEvents_cfg (b : Block) (m) : (b.clearEvents m).cfg = b.cfg := rfl
@[simp] theorem Block.clearEvents_irqEn (b : Block) (m) : (b.clearEvents m).irqEn = b.irqEn := rfl
@[simp] theorem Block.clearEvents_sticky (b : Block) (m) : (b.clearEvents m).sticky = b.sticky := rfl
@[simp] theorem Block.clearEvents_fifo (b : Block) (m) : (b.clearEvents m).fifo = b.fifo := rfl
@[simp] theorem Block.clearEvents_power (b : Block) (m) : (b.clearEvents m).power = b.power := rfl
@[simp] theorem Block.clearEvents_run (b : Block) (m) : (b.clearEvents m).run = b.run := rfl

/-! ### The run lock -/

/-- Every way a locked write can come out (R72). -/
theorem Block.lockedWrite_cases (b : Block) (f : Regs → Regs) :
    (b.running = true ∧ b.lockedWrite f = b.raise .werr) ∨
    (b.running = false ∧ b.lockedWrite f = b.setCfg (f b.cfg)) := by
  unfold Block.lockedWrite
  by_cases h : b.running = true
  · exact .inl ⟨h, if_pos h⟩
  · exact .inr ⟨by simpa using h, if_neg h⟩

@[simp] theorem Block.lockedWrite_stage (b : Block) (f) : (b.lockedWrite f).stage = b.stage := by
  obtain ⟨-, h⟩ | ⟨-, h⟩ := b.lockedWrite_cases f <;> simp [h]
@[simp] theorem Block.lockedWrite_irqEn (b : Block) (f) : (b.lockedWrite f).irqEn = b.irqEn := by
  obtain ⟨-, h⟩ | ⟨-, h⟩ := b.lockedWrite_cases f <;> simp [h]
@[simp] theorem Block.lockedWrite_fifo (b : Block) (f) : (b.lockedWrite f).fifo = b.fifo := by
  obtain ⟨-, h⟩ | ⟨-, h⟩ := b.lockedWrite_cases f <;> simp [h]
@[simp] theorem Block.lockedWrite_power (b : Block) (f) : (b.lockedWrite f).power = b.power := by
  obtain ⟨-, h⟩ | ⟨-, h⟩ := b.lockedWrite_cases f <;> simp [h]
@[simp] theorem Block.lockedWrite_run (b : Block) (f) : (b.lockedWrite f).run = b.run := by
  obtain ⟨-, h⟩ | ⟨-, h⟩ := b.lockedWrite_cases f <;> simp [h]

/-! ### The FIFO -/

/-- Every way a push can come out (R135). -/
theorem Block.push_cases (b : Block) (par : Params) (w : Word) :
    (b.fifo.length = par.rfifoDepth ∧ b.push par w = b.raise .ovf) ∨
    (b.fifo.length ≠ par.rfifoDepth ∧ b.push par w = (b.setFifo (b.fifo ++ [w])).event .res) := by
  unfold Block.push
  by_cases h : b.fifo.length = par.rfifoDepth
  · exact .inl ⟨h, if_pos h⟩
  · exact .inr ⟨h, if_neg h⟩

@[simp] theorem Block.push_stage (b : Block) (par w) : (b.push par w).stage = b.stage := by
  obtain ⟨-, h⟩ | ⟨-, h⟩ := b.push_cases par w <;> simp [h]
@[simp] theorem Block.push_cfg (b : Block) (par w) : (b.push par w).cfg = b.cfg := by
  obtain ⟨-, h⟩ | ⟨-, h⟩ := b.push_cases par w <;> simp [h]
@[simp] theorem Block.push_irqEn (b : Block) (par w) : (b.push par w).irqEn = b.irqEn := by
  obtain ⟨-, h⟩ | ⟨-, h⟩ := b.push_cases par w <;> simp [h]
@[simp] theorem Block.push_power (b : Block) (par w) : (b.push par w).power = b.power := by
  obtain ⟨-, h⟩ | ⟨-, h⟩ := b.push_cases par w <;> simp [h]
@[simp] theorem Block.push_run (b : Block) (par w) : (b.push par w).run = b.run := by
  obtain ⟨-, h⟩ | ⟨-, h⟩ := b.push_cases par w <;> simp [h]

/-- A push in views: either the FIFO was full and OVF and ERR are set, or the word entered and RES is set. -/
theorem Block.push_views (b : Block) (par : Params) (w : Word) :
    (b.fifo.length = par.rfifoDepth ∧ (b.push par w).fifo = b.fifo ∧
      (∀ e, (b.push par w).flag e = (b.flag e || decide (.ovf = e))) ∧
      (∀ e, (b.push par w).pending e = (b.pending e || decide (e = .err)))) ∨
    (b.fifo.length ≠ par.rfifoDepth ∧ (b.push par w).fifo = b.fifo ++ [w] ∧
      (∀ e, (b.push par w).flag e = b.flag e) ∧
      (∀ e, (b.push par w).pending e = (b.pending e || decide (e = .res)))) := by
  obtain ⟨h, e⟩ | ⟨h, e⟩ := b.push_cases par w
  · exact .inl (by simp [e, h])
  · exact .inr (by simp [e, h, Block.flag, Block.pending, eq_comm])

/-- A push keeps the FIFO within its depth (R38). -/
theorem Block.push_length (b : Block) (par w) (h : b.fifo.length ≤ par.rfifoDepth) :
    (b.push par w).fifo.length ≤ par.rfifoDepth := by
  obtain ⟨-, e⟩ | ⟨hn, e⟩ := b.push_cases par w
  · simpa [e] using h
  · simp [e]; omega

@[simp] theorem Block.popped_stage (b : Block) : b.popped.stage = b.stage := rfl
@[simp] theorem Block.popped_cfg (b : Block) : b.popped.cfg = b.cfg := rfl
@[simp] theorem Block.popped_irqEn (b : Block) : b.popped.irqEn = b.irqEn := rfl
@[simp] theorem Block.popped_irqStat (b : Block) : b.popped.irqStat = b.irqStat := rfl
@[simp] theorem Block.popped_sticky (b : Block) : b.popped.sticky = b.sticky := rfl
@[simp] theorem Block.popped_fifo (b : Block) : b.popped.fifo = b.fifo.tail := rfl
@[simp] theorem Block.popped_power (b : Block) : b.popped.power = b.power := rfl
@[simp] theorem Block.popped_run (b : Block) : b.popped.run = b.run := rfl

/-! ### Commands -/

/-- Every way a command can come out (R102, R103). -/
theorem Block.guarded_cases (b : Block) (c : Command) (f : Block → Block) :
    (allowed c b.stage = true ∧ b.guarded c f = f b) ∨
    (allowed c b.stage = false ∧ b.guarded c f = b.raise .cmderr) := by
  unfold Block.guarded
  by_cases h : allowed c b.stage = true
  · exact .inl ⟨h, if_pos h⟩
  · exact .inr ⟨by simpa using h, if_neg h⟩

@[simp] theorem Block.runInit_stage (b : Block) (st) : (b.runInit st).stage = st := rfl
@[simp] theorem Block.runInit_cfg (b : Block) (st) : (b.runInit st).cfg = b.cfg := rfl
@[simp] theorem Block.runInit_irqEn (b : Block) (st) : (b.runInit st).irqEn = b.irqEn := rfl
@[simp] theorem Block.runInit_irqStat (b : Block) (st) : (b.runInit st).irqStat = b.irqStat := rfl
@[simp] theorem Block.runInit_sticky (b : Block) (st) : (b.runInit st).sticky = b.sticky := rfl
@[simp] theorem Block.runInit_fifo (b : Block) (st) : (b.runInit st).fifo = [] := rfl
@[simp] theorem Block.runInit_power (b : Block) (st) : (b.runInit st).power = b.power := rfl
@[simp] theorem Block.runInit_run (b : Block) (st) : (b.runInit st).run = Run.init := rfl

@[simp] theorem Block.discard_stage (b : Block) : b.discard.stage = b.stage := rfl
@[simp] theorem Block.discard_cfg (b : Block) : b.discard.cfg = b.cfg := rfl
@[simp] theorem Block.discard_irqEn (b : Block) : b.discard.irqEn = b.irqEn := rfl
@[simp] theorem Block.discard_irqStat (b : Block) : b.discard.irqStat = b.irqStat := rfl
@[simp] theorem Block.discard_sticky (b : Block) : b.discard.sticky = b.sticky := rfl
@[simp] theorem Block.discard_fifo (b : Block) : b.discard.fifo = b.fifo := rfl
@[simp] theorem Block.discard_power (b : Block) : b.discard.power = b.power := rfl
@[simp] theorem Block.discard_run (b : Block) : b.discard.run = { b.run with samples := [] } := rfl

@[simp] theorem Block.finish_stage (b : Block) : b.finish.stage = .done := rfl
@[simp] theorem Block.finish_cfg (b : Block) : b.finish.cfg = b.cfg := rfl
@[simp] theorem Block.finish_irqEn (b : Block) : b.finish.irqEn = b.irqEn := rfl
@[simp] theorem Block.finish_irqStat (b : Block) : b.finish.irqStat = b.irqStat ||| Event.done.mask := rfl
@[simp] theorem Block.finish_sticky (b : Block) : b.finish.sticky = b.sticky := rfl
@[simp] theorem Block.finish_fifo (b : Block) : b.finish.fifo = b.fifo := rfl
@[simp] theorem Block.finish_power (b : Block) : b.finish.power = b.power := rfl
@[simp] theorem Block.finish_run (b : Block) : b.finish.run = { b.run with samples := [] } := rfl

/-! ### Banks -/

@[simp] theorem bankGet_bankSet (b : Bank) (j k : Slot) (w : Word) :
    bankGet (bankSet b j w) k = if k = j then w else bankGet b k := by
  simp only [bankGet, bankSet, Vector.get_eq_getElem, Vector.getElem_set, Fin.ext_iff, eq_comm]

@[simp] theorem bankGet_bankMap (f : Word → Word) (b : Bank) (j : Slot) :
    bankGet (bankMap f b) j = f (bankGet b j) := by
  simp [bankGet, bankMap, Vector.get_eq_getElem]

/-- Some slot satisfies a predicate iff the bank says so. -/
theorem bankAny_iff (p : Word → Bool) (b : Bank) : bankAny p b = true ↔ ∃ j : Slot, p (bankGet b j) = true := by
  simp only [bankAny, List.any_eq_true, bankGet, Vector.get_eq_getElem, List.mem_iff_getElem]
  constructor
  · rintro ⟨x, ⟨n, hn, rfl⟩, hx⟩
    exact ⟨⟨n, by simpa using hn⟩, by simpa using hx⟩
  · rintro ⟨j, hj⟩
    exact ⟨_, ⟨j, by simp, rfl⟩, by simpa using hj⟩

end Sys2Proof.Machine
end

