-- ==== Sys2Proof/Laws/Sample.lean ====
section
/-! SUPPORT. What the operations of the sample path do (Machine/Sample.lean), and every way a WR_SAMPLE can come out. -/

namespace Sys2Proof.Machine

/-! ### Powers -/

@[simp] theorem bankGet_powers (coef : Bank) (xs : List Word) (j : Slot) :
    bankGet (powers coef xs) j = goertzel (bankGet coef j) xs := by simp [powers]

/-! ### Latch and evaluation -/

/-- Every way the latch can come out (R123). -/
theorem Block.latch_cases (b : Block) (p : Bank) :
    ((∃ j, F32.isNaN (bankGet p j) = true) ∧ b.latch p = (b.setPower p).raise .nanseen) ∨
    ((∀ j, F32.isNaN (bankGet p j) = false) ∧ b.latch p = b.setPower p) := by
  unfold Block.latch
  by_cases h : bankAny F32.isNaN p = true
  · exact .inl ⟨(bankAny_iff _ _).1 h, if_pos h⟩
  · refine .inr ⟨fun j => ?_, if_neg h⟩
    by_contra hj
    exact h ((bankAny_iff _ _).2 ⟨j, by simpa using hj⟩)

@[simp] theorem Block.latch_stage (b : Block) (p) : (b.latch p).stage = b.stage := by
  obtain ⟨-, h⟩ | ⟨-, h⟩ := b.latch_cases p <;> simp [h]
@[simp] theorem Block.latch_cfg (b : Block) (p) : (b.latch p).cfg = b.cfg := by
  obtain ⟨-, h⟩ | ⟨-, h⟩ := b.latch_cases p <;> simp [h]
@[simp] theorem Block.latch_irqEn (b : Block) (p) : (b.latch p).irqEn = b.irqEn := by
  obtain ⟨-, h⟩ | ⟨-, h⟩ := b.latch_cases p <;> simp [h]
@[simp] theorem Block.latch_irqStat (b : Block) (p) : (b.latch p).irqStat = b.irqStat := by
  obtain ⟨-, h⟩ | ⟨-, h⟩ := b.latch_cases p <;> simp [h]
@[simp] theorem Block.latch_fifo (b : Block) (p) : (b.latch p).fifo = b.fifo := by
  obtain ⟨-, h⟩ | ⟨-, h⟩ := b.latch_cases p <;> simp [h]
@[simp] theorem Block.latch_power (b : Block) (p) : (b.latch p).power = p := by
  obtain ⟨-, h⟩ | ⟨-, h⟩ := b.latch_cases p <;> simp [h]
@[simp] theorem Block.latch_run (b : Block) (p) : (b.latch p).run = b.run := by
  obtain ⟨-, h⟩ | ⟨-, h⟩ := b.latch_cases p <;> simp [h]

/-- The latch sets NANSEEN for a NaN power and leaves every other sticky bit. -/
@[simp] theorem Block.latch_flag (b : Block) (p) (e : ErrBit) :
    (b.latch p).flag e = (b.flag e || (decide (.nanseen = e) && bankAny F32.isNaN p)) := by
  unfold Block.latch
  split <;> rename_i h <;> simp [h, Block.flag]

@[simp] theorem Block.evaluated_stage (b : Block) (p r) : (b.evaluated p r).stage = b.stage := by simp [Block.evaluated]
@[simp] theorem Block.evaluated_cfg (b : Block) (p r) : (b.evaluated p r).cfg = b.cfg := by simp [Block.evaluated]
@[simp] theorem Block.evaluated_irqEn (b : Block) (p r) : (b.evaluated p r).irqEn = b.irqEn := by simp [Block.evaluated]
@[simp] theorem Block.evaluated_irqStat (b : Block) (p r) : (b.evaluated p r).irqStat = b.irqStat := by
  simp [Block.evaluated]
@[simp] theorem Block.evaluated_sticky (b : Block) (p r) : (b.evaluated p r).sticky = (b.latch p).sticky := by
  simp [Block.evaluated]
@[simp] theorem Block.evaluated_fifo (b : Block) (p r) : (b.evaluated p r).fifo = b.fifo := by simp [Block.evaluated]
@[simp] theorem Block.evaluated_power (b : Block) (p r) : (b.evaluated p r).power = p := by simp [Block.evaluated]
@[simp] theorem Block.evaluated_run (b : Block) (p r) :
    (b.evaluated p r).run = ({ b.run with wcount := b.run.wcount + 1 } : Run).account r := by simp [Block.evaluated]

@[simp] theorem Run.account_none (u : Run) : u.account .none = u := rfl
@[simp] theorem Run.account_detect (u : Run) (v l h) : u.account (.detect v l h) = { u with acc := true } := rfl
@[simp] theorem Run.debounced_none (u : Run) (pos) : u.debounced pos .none = { u with dbGap := true } := rfl
@[simp] theorem Run.debounced_detect (u : Run) (pos v l h) :
    u.debounced pos (.detect v l h) = { u with dbValid := true, dbLast := v, dbPos := pos, dbGap := false } := rfl
@[simp] theorem Run.account_index (u : Run) (r) : (u.account r).index = u.index := by cases r <;> rfl
@[simp] theorem Run.account_wcount (u : Run) (r) : (u.account r).wcount = u.wcount := by cases r <;> rfl
@[simp] theorem Run.debounced_index (u : Run) (pos r) : (u.debounced pos r).index = u.index := by cases r <;> rfl
@[simp] theorem Run.debounced_wcount (u : Run) (pos r) : (u.debounced pos r).wcount = u.wcount := by cases r <;> rfl
@[simp] theorem emits_none (r : Regs) (u : Run) (pos) : emits r u pos .none = false := rfl

/-! ### The kept samples (R119) -/

theorem lastSamples_length (n : Nat) (xs : List Word) : (lastSamples n xs).length = min n xs.length := by
  simp [lastSamples]; omega

/-- When exactly N samples are kept, the window is all of them. -/
theorem lastSamples_all {n : Nat} {xs : List Word} (h : xs.length ≤ n) : lastSamples n xs = xs := by
  simp [lastSamples, Nat.sub_eq_zero_of_le h]

/-! ### The resonator -/

/-- Running values per open window give the same power as keeping the samples (R121). -/
theorem resonator_append (c : Word) (xs ys : List Word) (r : Resonator) :
    (xs ++ ys).foldl (Resonator.next c) r = ys.foldl (Resonator.next c) (xs.foldl (Resonator.next c) r) :=
  List.foldl_append

/-! ### The window schedule (R120) -/

theorem completedWindow_scan {n s i k : Nat} (h : completedWindow .scan n s i = some k) :
    n ≤ i + 1 ∧ (i + 1 - n) % s = 0 ∧ k = (i + 1 - n) / s := by
  simp only [completedWindow] at h
  split at h
  · rename_i hc; simp only [Option.some.injEq] at h; exact ⟨hc.1, hc.2, h.symm⟩
  · cases h

theorem completedWindow_oneshot {n s i k : Nat} (h : completedWindow .oneshot n s i = some k) :
    i + 1 = n ∧ k = 0 := by
  simp only [completedWindow] at h
  split at h
  · rename_i hc; simp only [Option.some.injEq] at h; exact ⟨hc, h.symm⟩
  · cases h

/-! ### WR_SAMPLE -/

/-- The samples of the window that the sample `x` completes. -/
def Block.windowWith (b : Block) (x : Word) : List Word := lastSamples b.cfg.winN (b.run.samples ++ [x])

/-- Every way a WR_SAMPLE can come out (R115, R138): refused outside a run; absorbed; or absorbed with window `k` evaluated as
class `r` and completed. It never answers a refusal, and faults only for MODE = 3 (log 4). -/
theorem execWrSample_cases (x : Word) (s : State) :
    (s.blk.running = false ∧ execWrSample x s = .next (s.written (s.blk.raise .serr))) ∨
    (s.blk.running = true ∧
      completedWindow s.blk.stage s.blk.cfg.winN s.blk.cfg.stepS s.blk.run.index = none ∧
      execWrSample x s = .next (s.written (s.blk.setRun (s.blk.run.absorb x)))) ∨
    (∃ k, s.blk.running = true ∧
      completedWindow s.blk.stage s.blk.cfg.winN s.blk.cfg.stepS s.blk.run.index = some k ∧
      classify s.blk.cfg (powers s.blk.cfg.coef (s.blk.windowWith x)) = none ∧
      execWrSample x s = .fault .modeInvalidInRun) ∨
    (∃ k r, s.blk.running = true ∧
      completedWindow s.blk.stage s.blk.cfg.winN s.blk.cfg.stepS s.blk.run.index = some k ∧
      classify s.blk.cfg (powers s.blk.cfg.coef (s.blk.windowWith x)) = some r ∧
      execWrSample x s = .next (s.written (((s.blk.setRun (s.blk.run.absorb x)).evaluated
        (powers s.blk.cfg.coef (s.blk.windowWith x)) r).complete s.par k (s.blk.windowWith x) r))) := by
  cases hr : s.blk.running with
  | false => exact .inl ⟨rfl, by simp [execWrSample, hr]⟩
  | true =>
    right
    cases hc : completedWindow s.blk.stage s.blk.cfg.winN s.blk.cfg.stepS s.blk.run.index with
    | none => exact .inl ⟨rfl, rfl, by simp [execWrSample, hr, hc]⟩
    | some k =>
      right
      cases hk : classify s.blk.cfg (powers s.blk.cfg.coef (s.blk.windowWith x)) with
      | none => exact .inl ⟨k, rfl, rfl, rfl, by
          simp only [Block.windowWith] at hk; simp [execWrSample, hr, hc, Run.absorb, hk]⟩
      | some r => exact .inr ⟨k, r, rfl, rfl, rfl, by
          simp only [Block.windowWith] at hk ⊢; simp [execWrSample, hr, hc, Run.absorb, hk]⟩

/-- Every way a SCAN completion can come out (R134, R136). -/
theorem Block.completeScan_cases (b : Block) (par : Params) (k : Nat) (xs : List Word) (r : WindowClass) :
    let b1 := b.setRun { b.run.debounced (k * b.cfg.stepS) r with samples := xs.drop b.cfg.stepS }
    (emits b.cfg b.run (k * b.cfg.stepS) r = true ∧ b.completeScan par k xs r = b1.push par (resultWord b.cfg k r)) ∨
    (emits b.cfg b.run (k * b.cfg.stepS) r = false ∧ b.completeScan par k xs r = b1) := by
  unfold Block.completeScan
  cases h : emits b.cfg b.run (k * b.cfg.stepS) r
  · exact .inr ⟨rfl, by simp [h]⟩
  · exact .inl ⟨rfl, by simp [h]⟩

@[simp] theorem Block.completeScan_run (b : Block) (par k xs r) : (b.completeScan par k xs r).run =
    { b.run.debounced (k * b.cfg.stepS) r with samples := xs.drop b.cfg.stepS } := by
  obtain ⟨-, e⟩ | ⟨-, e⟩ := b.completeScan_cases par k xs r <;> simp [e]
@[simp] theorem Block.completeScan_stage (b : Block) (par k xs r) : (b.completeScan par k xs r).stage = b.stage := by
  obtain ⟨-, e⟩ | ⟨-, e⟩ := b.completeScan_cases par k xs r <;> simp [e]
@[simp] theorem Block.completeScan_cfg (b : Block) (par k xs r) : (b.completeScan par k xs r).cfg = b.cfg := by
  obtain ⟨-, e⟩ | ⟨-, e⟩ := b.completeScan_cases par k xs r <;> simp [e]
@[simp] theorem Block.completeScan_irqEn (b : Block) (par k xs r) : (b.completeScan par k xs r).irqEn = b.irqEn := by
  obtain ⟨-, e⟩ | ⟨-, e⟩ := b.completeScan_cases par k xs r <;> simp [e]
@[simp] theorem Block.completeScan_power (b : Block) (par k xs r) : (b.completeScan par k xs r).power = b.power := by
  obtain ⟨-, e⟩ | ⟨-, e⟩ := b.completeScan_cases par k xs r <;> simp [e]

/-- A completion of either kind keeps the powers and both counters. -/
theorem Block.complete_keeps (b : Block) (par k xs r) : (b.complete par k xs r).power = b.power ∧
    (b.complete par k xs r).run.index = b.run.index ∧ (b.complete par k xs r).run.wcount = b.run.wcount := by
  unfold Block.complete
  split <;> simp [Block.completeOneshot, Block.finish, Block.discard]

/-- What a WR_SAMPLE that answers a next state did to the block: refused it, absorbed it, completed a ONESHOT, or completed a
SCAN window. -/
theorem execWrSample_next {s t : State} {x : Word} (h : execWrSample x s = .next t) :
    (s.blk.running = false ∧ t.blk = s.blk.raise .serr) ∨
    (s.blk.running = true ∧
      completedWindow s.blk.stage s.blk.cfg.winN s.blk.cfg.stepS s.blk.run.index = none ∧
      t.blk = s.blk.setRun (s.blk.run.absorb x)) ∨
    (∃ r, s.blk.stage = .oneshot ∧ s.blk.run.index + 1 = s.blk.cfg.winN ∧
      t.blk = ((s.blk.setRun (s.blk.run.absorb x)).evaluated
        (powers s.blk.cfg.coef (s.blk.windowWith x)) r).completeOneshot s.par r) ∨
    (∃ k r, s.blk.stage = .scan ∧
      completedWindow .scan s.blk.cfg.winN s.blk.cfg.stepS s.blk.run.index = some k ∧
      t.blk = ((s.blk.setRun (s.blk.run.absorb x)).evaluated
        (powers s.blk.cfg.coef (s.blk.windowWith x)) r).completeScan s.par k (s.blk.windowWith x) r) := by
  obtain ⟨hr, e⟩ | ⟨hr, hc, e⟩ | ⟨k, hr, hc, -, e⟩ | ⟨k, r, hr, hc, -, e⟩ := execWrSample_cases x s <;>
    rw [e] at h <;> cases h
  · exact .inl ⟨hr, rfl⟩
  · exact .inr (.inl ⟨hr, hc, rfl⟩)
  · right; right
    cases hst : s.blk.stage with
    | idle => simp [Block.running, hst, Stage.running] at hr
    | done => simp [Block.running, hst, Stage.running] at hr
    | oneshot =>
      rw [hst] at hc
      obtain ⟨hn, rfl⟩ := completedWindow_oneshot hc
      exact .inl ⟨r, rfl, hn, by simp [Block.complete, hst]⟩
    | scan => exact .inr ⟨k, r, rfl, hst ▸ hc, by simp [Block.complete, hst]⟩

/-- `classify` answers for every MODE but 3 (R125). -/
theorem classify_isSome {r : Regs} (h : r.mode ≠ .invalid) (p : Bank) : ∃ c, classify r p = some c := by
  unfold classify
  cases hm : r.mode with
  | invalid => exact absurd hm h
  | dual => exact ⟨_, rfl⟩
  | bin => exact ⟨_, rfl⟩
  | tone => exact ⟨_, rfl⟩

end Sys2Proof.Machine
end

