-- ==== Sys2Proof/Laws/Exec.lean ====
section
/-! SUPPORT. What one instruction can do, said once: a command's effect on the block, and the inversion of `exec`. -/

namespace Sys2Proof.Machine

/-- What a command does to the block (spec/41_commands.md R106-R113). -/
def commandEffect (par : Params) (c : Command) (b : Block) : Block :=
  match c with
  | .nop => b.guarded .nop fun b => b
  | .startScan => b.guarded .startScan fun b => if cfgOk par true b.cfg then b.runInit .scan else b.raise .cfgerr
  | .startOneshot =>
    b.guarded .startOneshot fun b => if cfgOk par false b.cfg then b.runInit .oneshot else b.raise .cfgerr
  | .endStream => b.guarded .endStream Block.finish
  | .abort => b.guarded .abort fun b => b.discard.setStage .idle
  | .flush => b.guarded .flush fun b => b.setFifo []
  | .softReset => Block.reset
  | .invalid _ => b.raise .cmderr

/-- A command, direct or as the data of WR_CMD, completes with its effect on the block. -/
theorem exec_command {i : Instr} {c : Command} (h : i.command = some c) (s : State) :
    exec i s = .next (s.written (commandEffect s.par c s.blk)) := by
  cases i <;> simp only [Instr.command, Option.some.injEq, reduceCtorEq] at h
  case wrCmd d =>
    simp only [exec, execWrCmd, h]
    cases c <;> rfl
  all_goals
    subst h
    rfl

/-- Every way a command can come out, unguarded: refused with CMDERR, a refused START, or its effect. -/
theorem commandEffect_cases (par : Params) (c : Command) (b : Block) :
    (allowed c b.stage = false ∧ commandEffect par c b = b.raise .cmderr) ∨
    (allowed c b.stage = true ∧ c = .nop ∧ commandEffect par c b = b) ∨
    (allowed c b.stage = true ∧ c = .startScan ∧
      commandEffect par c b = if cfgOk par true b.cfg then b.runInit .scan else b.raise .cfgerr) ∨
    (allowed c b.stage = true ∧ c = .startOneshot ∧
      commandEffect par c b = if cfgOk par false b.cfg then b.runInit .oneshot else b.raise .cfgerr) ∨
    (allowed c b.stage = true ∧ c = .endStream ∧ commandEffect par c b = b.finish) ∨
    (c = .abort ∧ commandEffect par c b = b.discard.setStage .idle) ∨
    (c = .flush ∧ commandEffect par c b = b.setFifo []) ∨
    (c = .softReset ∧ commandEffect par c b = Block.reset) := by
  cases c <;> cases h : b.stage <;> simp [commandEffect, Block.guarded, allowed, h]

/-- The inversion of `exec`: what an instruction that answers a next state did to the block, and that it left the parameters,
the pending host operations and the draws alone. -/
theorem exec_inv {i : Instr} {s t : State} (h : exec i s = .next t) :
    (t.par = s.par ∧ t.host = s.host ∧ t.draws = s.draws) ∧
    ((i.command = none ∧ i.isLockedWrite = false ∧ (∀ x, i ≠ .wrSample x) ∧ t.blk = s.blk) ∨
     (i = .rdResult ∧ t.blk = s.blk.popped) ∨
     (i.command = none ∧ i.isLockedWrite = true ∧ ∃ f, t.blk = s.blk.lockedWrite f) ∨
     (∃ d, i = .wrStatus d ∧ t.blk = s.blk.clearSticky (stickyField d)) ∨
     (∃ d, i = .wrIrqStat d ∧ t.blk = s.blk.clearEvents (irqField d)) ∨
     (∃ d, i = .wrIrqEn d ∧ t.blk = s.blk.setIrqEn (irqField d)) ∨
     (∃ c, i.command = some c ∧ t.blk = commandEffect s.par c s.blk) ∨
     (∃ x, i = .wrSample x ∧ execWrSample x s = .next t)) := by
  cases hc : i.command with
  | some c =>
    rw [exec_command hc] at h
    cases h
    exact ⟨⟨rfl, rfl, rfl⟩, by simp⟩
  | none =>
    cases i <;> simp only [Instr.command, reduceCtorEq] at hc
    case wrSample x =>
      refine ⟨?_, .inr (.inr (.inr (.inr (.inr (.inr (.inr ⟨x, rfl, h⟩))))))⟩
      simp only [exec] at h
      obtain ⟨-, e⟩ | ⟨-, -, e⟩ | ⟨_, -, -, -, e⟩ | ⟨_, _, -, -, -, e⟩ := execWrSample_cases x s <;>
        rw [e] at h <;> cases h <;> exact ⟨rfl, rfl, rfl⟩
    all_goals
      cases h
      refine ⟨⟨rfl, rfl, rfl⟩, ?_⟩
      first
        | exact .inr (.inr (.inl ⟨rfl, rfl, _, State.written_blk _ _⟩))
        | exact .inr (.inr (.inr (.inl ⟨_, rfl, rfl⟩)))
        | exact .inr (.inr (.inr (.inr (.inl ⟨_, rfl, rfl⟩))))
        | exact .inr (.inr (.inr (.inr (.inr (.inl ⟨_, rfl, rfl⟩)))))
        | exact .inr (.inl ⟨rfl, rfl⟩)
        | exact .inl ⟨rfl, rfl, by simp, rfl⟩

end Sys2Proof.Machine
end

