-- ==== Sys2Proof/Laws/Float.lean ====
section
/-! SUPPORT. The fields and classes of a binary32 pattern, and what each operation answers on each class of operands
(Machine/Float.lean). -/

namespace Sys2Proof.Machine.F32

/-! ### Bounds of the fields -/

theorem expo_lt (w : Word) : expo w < 256 := (w.extractLsb' 23 8).isLt
theorem frac_lt (w : Word) : frac w < 2 ^ 23 := (w.extractLsb' 0 23).isLt

/-! ### Every pattern is exactly one of NaN, infinite, finite -/

theorem isFinite_iff (w : Word) : isFinite w = true ↔ isNaN w = false ∧ isInf w = false := by
  simp only [isFinite, isNaN, isInf]
  by_cases he : expo w = 255 <;> by_cases hf : frac w = 0 <;> simp [he, hf]

theorem not_isNaN_of_isFinite {w : Word} (h : isFinite w = true) : isNaN w = false := ((isFinite_iff w).1 h).1
theorem not_isInf_of_isFinite {w : Word} (h : isFinite w = true) : isInf w = false := ((isFinite_iff w).1 h).2

theorem not_isNaN_of_isInf {w : Word} (h : isInf w = true) : isNaN w = false := by
  simp only [isInf, isNaN, Bool.and_eq_true, beq_iff_eq] at h ⊢
  simp [h.2]

/-- A magnitude is 0 exactly for the two zeros. -/
theorem scaledMag_eq_zero (w : Word) : scaledMag w = 0 ↔ expo w = 0 ∧ frac w = 0 := by
  unfold scaledMag
  by_cases h : expo w = 0 <;> simp [h]

/-! ### A pattern built from a sign and bits [30:0] -/

theorem ofMag_toNat (neg : Bool) {mag : Nat} (h : mag < 2 ^ 31) :
    (ofMag neg mag).toNat = (if neg then 2 ^ 31 else 0) + mag := by
  unfold ofMag
  refine (BitVec.toNat_append (n := 31) (BitVec.ofBool neg) (BitVec.ofNat 31 mag)).trans ?_
  rw [← Nat.shiftLeft_add_eq_or_of_lt (BitVec.ofNat 31 mag).isLt]
  cases neg <;> simp <;> omega

@[simp] theorem sign_ofMag (neg : Bool) (mag : Nat) : sign (ofMag neg mag) = neg := by
  unfold sign ofMag
  refine (BitVec.getLsbD_append (n := 1) (m := 31)).trans ?_
  cases neg <;> rfl

theorem expo_ofMag (neg : Bool) {mag : Nat} (h : mag < 2 ^ 31) : expo (ofMag neg mag) = mag / 2 ^ 23 := by
  simp only [expo, BitVec.extractLsb'_toNat, ofMag_toNat neg h, Nat.shiftRight_eq_div_pow]
  cases neg <;> simp <;> omega

theorem frac_ofMag (neg : Bool) {mag : Nat} (h : mag < 2 ^ 31) : frac (ofMag neg mag) = mag % 2 ^ 23 := by
  simp only [frac, BitVec.extractLsb'_toNat, ofMag_toNat neg h]
  cases neg
  · simp
  · simp; omega

@[simp] theorem isInf_inf (neg : Bool) : isInf (inf neg) = true := by cases neg <;> decide
@[simp] theorem sign_inf (neg : Bool) : sign (inf neg) = neg := sign_ofMag neg _

/-- A rounding to no more than infinity is no NaN. -/
@[simp] theorem isNaN_ofMag_min (neg : Bool) (mag : Nat) : isNaN (ofMag neg (min mag 0x7F800000)) = false := by
  have h : min mag 0x7F800000 < 2 ^ 31 := by omega
  simp only [isNaN, expo_ofMag neg h, frac_ofMag neg h, Bool.and_eq_false_iff, beq_eq_false_iff_ne, bne_eq_false_iff_eq]
  omega

@[simp] theorem isNaN_round (neg : Bool) (n sh : Nat) : isNaN (round neg n sh) = false := isNaN_ofMag_min neg _

@[simp] theorem isNaN_roundInt (zeroNeg : Bool) (n : Int) (sh : Nat) : isNaN (roundInt zeroNeg n sh) = false := by
  unfold roundInt
  split
  · exact isNaN_ofMag_min zeroNeg 0
  · exact isNaN_round _ _ _

/-! ### Flipping the sign -/

@[simp] theorem sign_neg (w : Word) : sign (neg w) = !sign w := by simp [sign, neg]

@[simp] theorem expo_neg (w : Word) : expo (neg w) = expo w := by
  simp only [expo, neg]
  congr 1
  apply BitVec.eq_of_getLsbD_eq
  intro i hi
  rw [BitVec.getLsbD_extractLsb', BitVec.getLsbD_extractLsb', BitVec.getLsbD_xor]
  have : (0x80000000#32).getLsbD (23 + i) = false := by interval_cases i <;> rfl
  simp [this]

@[simp] theorem frac_neg (w : Word) : frac (neg w) = frac w := by
  simp only [frac, neg]
  congr 1
  apply BitVec.eq_of_getLsbD_eq
  intro i hi
  rw [BitVec.getLsbD_extractLsb', BitVec.getLsbD_extractLsb', BitVec.getLsbD_xor]
  have : (0x80000000#32).getLsbD i = false := by interval_cases i <;> rfl
  simp [this]

@[simp] theorem isNaN_neg (w : Word) : isNaN (neg w) = isNaN w := by simp [isNaN]
@[simp] theorem isInf_neg (w : Word) : isInf (neg w) = isInf w := by simp [isInf]
@[simp] theorem isFinite_neg (w : Word) : isFinite (neg w) = isFinite w := by simp [isFinite]
@[simp] theorem scaledMag_neg (w : Word) : scaledMag (neg w) = scaledMag w := by simp [scaledMag]

@[simp] theorem scaled_neg (w : Word) : scaled (neg w) = -scaled w := by
  cases h : sign w <;> simp [scaled, h]

/-! ### Every way an operation can come out -/

/-- Addition by the classes of its operands. -/
theorem add_cases (a b : Word) :
    ((isNaN a = true ∨ isNaN b = true) ∧ add a b = nan) ∨
    (isInf a = true ∧ isInf b = true ∧ sign a ≠ sign b ∧ add a b = nan) ∨
    (isInf a = true ∧ isNaN b = false ∧ (isInf b = true → sign a = sign b) ∧ add a b = inf (sign a)) ∨
    (isFinite a = true ∧ isInf b = true ∧ add a b = inf (sign b)) ∨
    (isFinite a = true ∧ isFinite b = true ∧ add a b = roundInt (sign a && sign b) (scaled a + scaled b) 0) := by
  simp only [isFinite_iff]
  unfold add
  cases hna : isNaN a <;> cases hnb : isNaN b <;> cases hia : isInf a <;> cases hib : isInf b <;>
    by_cases hs : sign a = sign b <;> simp [hs]

/-- Multiplication by the classes of its operands. -/
theorem mul_cases (a b : Word) :
    ((isNaN a = true ∨ isNaN b = true) ∧ mul a b = nan) ∨
    (isInf a = true ∧ isNaN b = false ∧ scaledMag b = 0 ∧ mul a b = nan) ∨
    (isInf b = true ∧ isNaN a = false ∧ scaledMag a = 0 ∧ mul a b = nan) ∨
    (isInf a = true ∧ isNaN b = false ∧ scaledMag b ≠ 0 ∧ mul a b = inf (sign a ^^ sign b)) ∨
    (isFinite a = true ∧ isInf b = true ∧ scaledMag a ≠ 0 ∧ mul a b = inf (sign a ^^ sign b)) ∨
    (isFinite a = true ∧ isFinite b = true ∧
      mul a b = round (sign a ^^ sign b) (scaledMag a * scaledMag b) 149) := by
  simp only [isFinite_iff]
  unfold mul
  cases hna : isNaN a <;> cases hnb : isNaN b <;> cases hia : isInf a <;> cases hib : isInf b <;>
    by_cases ha : scaledMag a = 0 <;> by_cases hb : scaledMag b = 0 <;> simp [ha, hb]

end Sys2Proof.Machine.F32
end

