-- ==== Sys2Proof/Laws/PerInstr.lean ====
section
/-! SUPPORT. Per instruction: the words of a well-formed instruction belong to its own row of the opcode table
(spec/opcode_table.json; spec/30_encoding.md R60-R64). -/

namespace Sys2Proof.Laws.RowWord

/-- A code belongs to the row of this mnemonic: a selector to a BUSOP row by match and mask; a command word to its row by being
that row's whole word (R63), or to CMD_INVALID by being no other row's (R64). -/
def inRow (mnemonic : String) : Code → Prop
  | .busop sel _ => ∃ r ∈ busopRows, r.mnemonic = mnemonic ∧ r.covers sel = true
  | .cmd32 word =>
    match decodeCommand word with
    | .nop => mnemonic = "NOP" ∧ word = 0#32
    | .startScan => mnemonic = "START_SCAN" ∧ word = 1#32
    | .startOneshot => mnemonic = "START_ONESHOT" ∧ word = 2#32
    | .endStream => mnemonic = "END_STREAM" ∧ word = 3#32
    | .abort => mnemonic = "ABORT" ∧ word = 4#32
    | .flush => mnemonic = "FLUSH" ∧ word = 5#32
    | .softReset => mnemonic = "SOFT_RESET" ∧ word = 6#32
    | .invalid w => mnemonic = "CMD_INVALID" ∧ word = w ∧ 7 ≤ word.toNat

/-- The words of a well-formed instruction belong to its row. -/
def Statement (i : Instr) : Prop := i.wellFormed = true → inRow i.mnemonic (encode i)

/-- A row of the table. -/
theorem mem_read {r : Row} (h : r ∈ readRows) : r ∈ busopRows := List.mem_append_left _ (List.mem_append_left _ h)
theorem mem_write {r : Row} (h : r ∈ writeRows) : r ∈ busopRows := List.mem_append_left _ (List.mem_append_right _ h)
theorem mem_bad {r : Row} (h : r ∈ badRows) : r ∈ busopRows := List.mem_append_right _ h

theorem rdId : Statement (.rdId) :=
  fun _ => ⟨⟨"RD_ID", 0x200#11, 0x7FF#11⟩, mem_read (by simp [readRows]), rfl, by decide⟩
theorem rdVersion : Statement (.rdVersion) :=
  fun _ => ⟨⟨"RD_VERSION", 0x204#11, 0x7FF#11⟩, mem_read (by simp [readRows]), rfl, by decide⟩
theorem rdCtrl : Statement (.rdCtrl) :=
  fun _ => ⟨⟨"RD_CTRL", 0x208#11, 0x7FF#11⟩, mem_read (by simp [readRows]), rfl, by decide⟩
theorem rdWoCmd : Statement (.rdWoCmd) :=
  fun _ => ⟨⟨"RD_WO_CMD", 0x20C#11, 0x7FF#11⟩, mem_read (by simp [readRows]), rfl, by decide⟩
theorem rdStatus : Statement (.rdStatus) :=
  fun _ => ⟨⟨"RD_STATUS", 0x210#11, 0x7FF#11⟩, mem_read (by simp [readRows]), rfl, by decide⟩
theorem rdIrqEn : Statement (.rdIrqEn) :=
  fun _ => ⟨⟨"RD_IRQ_EN", 0x214#11, 0x7FF#11⟩, mem_read (by simp [readRows]), rfl, by decide⟩
theorem rdIrqStat : Statement (.rdIrqStat) :=
  fun _ => ⟨⟨"RD_IRQ_STAT", 0x218#11, 0x7FF#11⟩, mem_read (by simp [readRows]), rfl, by decide⟩
theorem rdWinLen : Statement (.rdWinLen) :=
  fun _ => ⟨⟨"RD_WIN_LEN", 0x21C#11, 0x7FF#11⟩, mem_read (by simp [readRows]), rfl, by decide⟩
theorem rdWinStep : Statement (.rdWinStep) :=
  fun _ => ⟨⟨"RD_WIN_STEP", 0x220#11, 0x7FF#11⟩, mem_read (by simp [readRows]), rfl, by decide⟩
theorem rdDbGuard : Statement (.rdDbGuard) :=
  fun _ => ⟨⟨"RD_DB_GUARD", 0x224#11, 0x7FF#11⟩, mem_read (by simp [readRows]), rfl, by decide⟩
theorem rdThresh : Statement (.rdThresh) :=
  fun _ => ⟨⟨"RD_THRESH", 0x228#11, 0x7FF#11⟩, mem_read (by simp [readRows]), rfl, by decide⟩
theorem rdRatio : Statement (.rdRatio) :=
  fun _ => ⟨⟨"RD_RATIO", 0x22C#11, 0x7FF#11⟩, mem_read (by simp [readRows]), rfl, by decide⟩
theorem rdWoSample : Statement (.rdWoSample) :=
  fun _ => ⟨⟨"RD_WO_SAMPLE", 0x230#11, 0x7FF#11⟩, mem_read (by simp [readRows]), rfl, by decide⟩
theorem rdResult : Statement (.rdResult) :=
  fun _ => ⟨⟨"RD_RESULT", 0x234#11, 0x7FF#11⟩, mem_read (by simp [readRows]), rfl, by decide⟩
theorem rdSampleCnt : Statement (.rdSampleCnt) :=
  fun _ => ⟨⟨"RD_SAMPLE_CNT", 0x238#11, 0x7FF#11⟩, mem_read (by simp [readRows]), rfl, by decide⟩
theorem rdWinCnt : Statement (.rdWinCnt) :=
  fun _ => ⟨⟨"RD_WIN_CNT", 0x23C#11, 0x7FF#11⟩, mem_read (by simp [readRows]), rfl, by decide⟩
theorem rdCoef (j : Slot) : Statement (.rdCoef j) := by
  rintro -
  refine ⟨⟨"RD_COEF", 0x240#11, 0x7C3#11⟩, mem_read (by simp [readRows]), rfl, ?_⟩
  revert j; decide
theorem rdPower (j : Slot) : Statement (.rdPower j) := by
  rintro -
  refine ⟨⟨"RD_POWER", 0x280#11, 0x7C3#11⟩, mem_read (by simp [readRows]), rfl, ?_⟩
  revert j; decide
theorem rdSymmap (n : Fin 2) : Statement (.rdSymmap n) := by
  rintro -
  refine ⟨⟨"RD_SYMMAP", 0x2C0#11, 0x7FB#11⟩, mem_read (by simp [readRows]), rfl, ?_⟩
  revert n; decide
theorem rdRsvdC8 (off : BitVec 8) : Statement (.rdRsvdC8 off) := by
  intro h
  refine ⟨⟨"RD_RSVD_C8", 0x2C8#11, 0x7FB#11⟩, mem_read (by simp [readRows]), rfl, ?_⟩
  simp only [Instr.wellFormed, offsetIn] at h
  revert off; decide
theorem rdRsvdD0 (off : BitVec 8) : Statement (.rdRsvdD0 off) := by
  intro h
  refine ⟨⟨"RD_RSVD_D0", 0x2D0#11, 0x7F3#11⟩, mem_read (by simp [readRows]), rfl, ?_⟩
  simp only [Instr.wellFormed, offsetIn] at h
  revert off; decide
theorem rdRsvdE0 (off : BitVec 8) : Statement (.rdRsvdE0 off) := by
  intro h
  refine ⟨⟨"RD_RSVD_E0", 0x2E0#11, 0x7E3#11⟩, mem_read (by simp [readRows]), rfl, ?_⟩
  simp only [Instr.wellFormed, offsetIn] at h
  revert off; decide
theorem wrRoIdVersion (off : BitVec 8) (data : Word) : Statement (.wrRoIdVersion off data) := by
  intro h
  refine ⟨⟨"WR_RO_ID_VERSION", 0x600#11, 0x7FB#11⟩, mem_write (by simp [writeRows]), rfl, ?_⟩
  simp only [Instr.wellFormed, offsetIn] at h
  revert off; decide
theorem wrCtrl (data : Word) : Statement (.wrCtrl data) :=
  fun _ => ⟨⟨"WR_CTRL", 0x608#11, 0x7FF#11⟩, mem_write (by simp [writeRows]), rfl, by decide⟩
theorem wrCmd (data : Word) : Statement (.wrCmd data) :=
  fun _ => ⟨⟨"WR_CMD", 0x60C#11, 0x7FF#11⟩, mem_write (by simp [writeRows]), rfl, by decide⟩
theorem wrStatus (data : Word) : Statement (.wrStatus data) :=
  fun _ => ⟨⟨"WR_STATUS", 0x610#11, 0x7FF#11⟩, mem_write (by simp [writeRows]), rfl, by decide⟩
theorem wrIrqEn (data : Word) : Statement (.wrIrqEn data) :=
  fun _ => ⟨⟨"WR_IRQ_EN", 0x614#11, 0x7FF#11⟩, mem_write (by simp [writeRows]), rfl, by decide⟩
theorem wrIrqStat (data : Word) : Statement (.wrIrqStat data) :=
  fun _ => ⟨⟨"WR_IRQ_STAT", 0x618#11, 0x7FF#11⟩, mem_write (by simp [writeRows]), rfl, by decide⟩
theorem wrWinLen (data : Word) : Statement (.wrWinLen data) :=
  fun _ => ⟨⟨"WR_WIN_LEN", 0x61C#11, 0x7FF#11⟩, mem_write (by simp [writeRows]), rfl, by decide⟩
theorem wrWinStep (data : Word) : Statement (.wrWinStep data) :=
  fun _ => ⟨⟨"WR_WIN_STEP", 0x620#11, 0x7FF#11⟩, mem_write (by simp [writeRows]), rfl, by decide⟩
theorem wrDbGuard (data : Word) : Statement (.wrDbGuard data) :=
  fun _ => ⟨⟨"WR_DB_GUARD", 0x624#11, 0x7FF#11⟩, mem_write (by simp [writeRows]), rfl, by decide⟩
theorem wrThresh (data : Word) : Statement (.wrThresh data) :=
  fun _ => ⟨⟨"WR_THRESH", 0x628#11, 0x7FF#11⟩, mem_write (by simp [writeRows]), rfl, by decide⟩
theorem wrRatio (data : Word) : Statement (.wrRatio data) :=
  fun _ => ⟨⟨"WR_RATIO", 0x62C#11, 0x7FF#11⟩, mem_write (by simp [writeRows]), rfl, by decide⟩
theorem wrSample (data : Word) : Statement (.wrSample data) :=
  fun _ => ⟨⟨"WR_SAMPLE", 0x630#11, 0x7FF#11⟩, mem_write (by simp [writeRows]), rfl, by decide⟩
theorem wrRoResult (data : Word) : Statement (.wrRoResult data) :=
  fun _ => ⟨⟨"WR_RO_RESULT", 0x634#11, 0x7FF#11⟩, mem_write (by simp [writeRows]), rfl, by decide⟩
theorem wrRoCounters (off : BitVec 8) (data : Word) : Statement (.wrRoCounters off data) := by
  intro h
  refine ⟨⟨"WR_RO_COUNTERS", 0x638#11, 0x7FB#11⟩, mem_write (by simp [writeRows]), rfl, ?_⟩
  simp only [Instr.wellFormed, offsetIn] at h
  revert off; decide
theorem wrCoef (j : Slot) (data : Word) : Statement (.wrCoef j data) := by
  rintro -
  refine ⟨⟨"WR_COEF", 0x640#11, 0x7C3#11⟩, mem_write (by simp [writeRows]), rfl, ?_⟩
  revert j; decide
theorem wrRoPower (j : Slot) (data : Word) : Statement (.wrRoPower j data) := by
  rintro -
  refine ⟨⟨"WR_RO_POWER", 0x680#11, 0x7C3#11⟩, mem_write (by simp [writeRows]), rfl, ?_⟩
  revert j; decide
theorem wrSymmap (n : Fin 2) (data : Word) : Statement (.wrSymmap n data) := by
  rintro -
  refine ⟨⟨"WR_SYMMAP", 0x6C0#11, 0x7FB#11⟩, mem_write (by simp [writeRows]), rfl, ?_⟩
  revert n; decide
theorem wrRsvdC8 (off : BitVec 8) (data : Word) : Statement (.wrRsvdC8 off data) := by
  intro h
  refine ⟨⟨"WR_RSVD_C8", 0x6C8#11, 0x7FB#11⟩, mem_write (by simp [writeRows]), rfl, ?_⟩
  simp only [Instr.wellFormed, offsetIn] at h
  revert off; decide
theorem wrRsvdD0 (off : BitVec 8) (data : Word) : Statement (.wrRsvdD0 off data) := by
  intro h
  refine ⟨⟨"WR_RSVD_D0", 0x6D0#11, 0x7F3#11⟩, mem_write (by simp [writeRows]), rfl, ?_⟩
  simp only [Instr.wellFormed, offsetIn] at h
  revert off; decide
theorem wrRsvdE0 (off : BitVec 8) (data : Word) : Statement (.wrRsvdE0 off data) := by
  intro h
  refine ⟨⟨"WR_RSVD_E0", 0x6E0#11, 0x7E3#11⟩, mem_write (by simp [writeRows]), rfl, ?_⟩
  simp only [Instr.wellFormed, offsetIn] at h
  revert off; decide
theorem badAccessSz0 (write : Bool) (off : BitVec 8) : Statement (.badAccessSz0 write off) := by
  rintro -
  refine ⟨⟨"BAD_ACCESS_SZ0", 0x000#11, 0x300#11⟩, mem_bad (by simp [badRows]), rfl, ?_⟩
  revert write off; decide
theorem badAccessSz1 (write : Bool) (off : BitVec 8) : Statement (.badAccessSz1 write off) := by
  rintro -
  refine ⟨⟨"BAD_ACCESS_SZ1", 0x100#11, 0x300#11⟩, mem_bad (by simp [badRows]), rfl, ?_⟩
  revert write off; decide
theorem badAccessSz3 (write : Bool) (off : BitVec 8) : Statement (.badAccessSz3 write off) := by
  rintro -
  refine ⟨⟨"BAD_ACCESS_SZ3", 0x300#11, 0x300#11⟩, mem_bad (by simp [badRows]), rfl, ?_⟩
  revert write off; decide
theorem badAccessOdd (write : Bool) (off : BitVec 8) : Statement (.badAccessOdd write off) := by
  intro h
  refine ⟨⟨"BAD_ACCESS_ODD", 0x201#11, 0x301#11⟩, mem_bad (by simp [badRows]), rfl, ?_⟩
  simp only [Instr.wellFormed] at h
  revert write off; decide
theorem badAccessHalf (write : Bool) (off : BitVec 8) : Statement (.badAccessHalf write off) := by
  intro h
  refine ⟨⟨"BAD_ACCESS_HALF", 0x202#11, 0x303#11⟩, mem_bad (by simp [badRows]), rfl, ?_⟩
  simp only [Instr.wellFormed] at h
  revert write off; decide
theorem nop : Statement (.nop) := fun _ => ⟨rfl, rfl⟩
theorem startScan : Statement (.startScan) := fun _ => ⟨rfl, rfl⟩
theorem startOneshot : Statement (.startOneshot) := fun _ => ⟨rfl, rfl⟩
theorem endStream : Statement (.endStream) := fun _ => ⟨rfl, rfl⟩
theorem abort : Statement (.abort) := fun _ => ⟨rfl, rfl⟩
theorem flush : Statement (.flush) := fun _ => ⟨rfl, rfl⟩
theorem softReset : Statement (.softReset) := fun _ => ⟨rfl, rfl⟩
theorem cmdInvalid (word : Word) : Statement (.cmdInvalid word) := by
  intro h
  have h7 : 7 ≤ word.toNat := by simpa [Instr.wellFormed] using h
  have hd : decodeCommand word = .invalid word := by
    unfold decodeCommand
    split <;> first | omega | rfl
  simp only [encode, inRow, hd]
  exact ⟨rfl, trivial, h7⟩

end Sys2Proof.Laws.RowWord
end

