-- ==== Sys2Proof/Tests/Slice0.lean ====
section
/-! SUPPORT. Own tests, each expected value written out from the spec (the encodings of spec/30_encoding.md and the vectors of
spec/95_test_vectors.md, named beside each test), and for every obligation with hypotheses a concrete state and operands that
meet them together. -/

namespace Sys2Proof.Tests
open Sys2Proof Sys2Proof.Machine

set_option maxRecDepth 20000
set_option exponentiation.threshold 600

/-! ### WellFormed refuses -/

theorem test_wf_rsvd_c8 : (Instr.rdRsvdC8 0xD0#8).wellFormed = false ∧ (Instr.wrRsvdC8 0xC6#8 0#32).wellFormed = false := by
  decide
theorem test_wf_rsvd_d0 : (Instr.rdRsvdD0 0xE0#8).wellFormed = false ∧ (Instr.wrRsvdD0 0xCC#8 0#32).wellFormed = false := by
  decide
theorem test_wf_rsvd_e0 : (Instr.rdRsvdE0 0xE2#8).wellFormed = false ∧ (Instr.wrRsvdE0 0xDC#8 0#32).wellFormed = false := by
  decide
theorem test_wf_ro_id_version : (Instr.wrRoIdVersion 0x08#8 0#32).wellFormed = false := by decide
theorem test_wf_ro_counters : (Instr.wrRoCounters 0x34#8 0#32).wellFormed = false := by decide
theorem test_wf_bad_odd : (Instr.badAccessOdd true 0x10#8).wellFormed = false := by decide
theorem test_wf_bad_half : (Instr.badAccessHalf false 0x11#8).wellFormed = false ∧
    (Instr.badAccessHalf false 0x10#8).wellFormed = false := by decide
theorem test_wf_cmd_invalid : (Instr.cmdInvalid 6#32).wellFormed = false := by decide

/-! ### Decoding: words written from R59 (W, SZ, OFF), R60, R61, R63 -/

theorem test_decode_fixed_reads :
    decode (.busop 0b01000000000#11 0#32) = .rdId ∧ decode (.busop 0b01000000100#11 0#32) = .rdVersion ∧
    decode (.busop 0b01000001000#11 0#32) = .rdCtrl ∧ decode (.busop 0b01000001100#11 0#32) = .rdWoCmd ∧
    decode (.busop 0b01000010000#11 0#32) = .rdStatus ∧ decode (.busop 0b01000010100#11 0#32) = .rdIrqEn ∧
    decode (.busop 0b01000011000#11 0#32) = .rdIrqStat ∧ decode (.busop 0b01000011100#11 0#32) = .rdWinLen ∧
    decode (.busop 0b01000100000#11 0#32) = .rdWinStep ∧ decode (.busop 0b01000100100#11 0#32) = .rdDbGuard ∧
    decode (.busop 0b01000101000#11 0#32) = .rdThresh ∧ decode (.busop 0b01000101100#11 0#32) = .rdRatio ∧
    decode (.busop 0b01000110000#11 0#32) = .rdWoSample ∧ decode (.busop 0b01000110100#11 0#32) = .rdResult ∧
    decode (.busop 0b01000111000#11 0#32) = .rdSampleCnt ∧ decode (.busop 0b01000111100#11 0#32) = .rdWinCnt := by decide

theorem test_decode_indexed_reads :
    decode (.busop 0b01001000000#11 0#32) = .rdCoef 0 ∧ decode (.busop 0b01001111100#11 0#32) = .rdCoef 15 ∧
    decode (.busop 0b01010100000#11 0#32) = .rdPower 8 ∧ decode (.busop 0b01011000000#11 0#32) = .rdSymmap 0 ∧
    decode (.busop 0b01011000100#11 0#32) = .rdSymmap 1 ∧ decode (.busop 0b01011001100#11 0#32) = .rdRsvdC8 0xCC#8 ∧
    decode (.busop 0b01011011100#11 0#32) = .rdRsvdD0 0xDC#8 ∧
    decode (.busop 0b01011111100#11 0#32) = .rdRsvdE0 0xFC#8 := by decide

theorem test_decode_fixed_writes :
    decode (.busop 0b11000000000#11 7#32) = .wrRoIdVersion 0x00#8 7#32 ∧
    decode (.busop 0b11000000100#11 7#32) = .wrRoIdVersion 0x04#8 7#32 ∧
    decode (.busop 0b11000001000#11 7#32) = .wrCtrl 7#32 ∧ decode (.busop 0b11000001100#11 7#32) = .wrCmd 7#32 ∧
    decode (.busop 0b11000010000#11 7#32) = .wrStatus 7#32 ∧ decode (.busop 0b11000010100#11 7#32) = .wrIrqEn 7#32 ∧
    decode (.busop 0b11000011000#11 7#32) = .wrIrqStat 7#32 ∧ decode (.busop 0b11000011100#11 7#32) = .wrWinLen 7#32 ∧
    decode (.busop 0b11000100000#11 7#32) = .wrWinStep 7#32 ∧ decode (.busop 0b11000100100#11 7#32) = .wrDbGuard 7#32 ∧
    decode (.busop 0b11000101000#11 7#32) = .wrThresh 7#32 ∧ decode (.busop 0b11000101100#11 7#32) = .wrRatio 7#32 ∧
    decode (.busop 0b11000110000#11 7#32) = .wrSample 7#32 ∧ decode (.busop 0b11000110100#11 7#32) = .wrRoResult 7#32 ∧
    decode (.busop 0b11000111100#11 7#32) = .wrRoCounters 0x3C#8 7#32 := by decide

theorem test_decode_indexed_writes :
    decode (.busop 0b11001010100#11 7#32) = .wrCoef 5 7#32 ∧ decode (.busop 0b11010001100#11 7#32) = .wrRoPower 3 7#32 ∧
    decode (.busop 0b11011000100#11 7#32) = .wrSymmap 1 7#32 ∧
    decode (.busop 0b11011001000#11 7#32) = .wrRsvdC8 0xC8#8 7#32 ∧
    decode (.busop 0b11011010000#11 7#32) = .wrRsvdD0 0xD0#8 7#32 ∧
    decode (.busop 0b11011100000#11 7#32) = .wrRsvdE0 0xE0#8 7#32 := by decide

theorem test_decode_bad_accesses :
    decode (.busop 0b00000010000#11 7#32) = .badAccessSz0 false 0x10#8 ∧
    decode (.busop 0b10100010000#11 7#32) = .badAccessSz1 true 0x10#8 ∧
    decode (.busop 0b01100010000#11 7#32) = .badAccessSz3 false 0x10#8 ∧
    decode (.busop 0b11000010011#11 7#32) = .badAccessOdd true 0x13#8 ∧
    decode (.busop 0b01000010010#11 7#32) = .badAccessHalf false 0x12#8 := by decide

theorem test_decode_commands :
    decode (.cmd32 0x00000000#32) = .nop ∧ decode (.cmd32 0x00000001#32) = .startScan ∧
    decode (.cmd32 0x00000002#32) = .startOneshot ∧ decode (.cmd32 0x00000003#32) = .endStream ∧
    decode (.cmd32 0x00000004#32) = .abort ∧ decode (.cmd32 0x00000005#32) = .flush ∧
    decode (.cmd32 0x00000006#32) = .softReset ∧ decode (.cmd32 0x80000001#32) = .cmdInvalid 0x80000001#32 := by decide

/-- The table's numbering: a BUSOP row has its selector in 16 bits, a CMD32 row its word in 32. -/
theorem test_decode_table_words :
    decodeTableWord 16 0x630 = some (.wrSample 0#32) ∧ decodeTableWord 16 0x110 = some (.badAccessSz1 false 0x10#8) ∧
    decodeTableWord 32 5 = some .flush ∧ decodeTableWord 16 0x800 = none := by decide

theorem test_decode_bytes_rejects :
    (match decodeBytes [0x10#8, 0x08#8, 0#8, 0#8, 0#8, 0#8] with
      | .error .selectorPadding => true | _ => false) = true ∧
    (match decodeBytes [0x10#8] with | .error (.length 1) => true | _ => false) = true := by decide

/-! ### One step -/

/-- A view of the state an instruction leaves, `none` where it answers no next state. -/
def view {α : Type} (i : Instr) (s : State) (f : State → α) : Option α :=
  match exec i s with
  | .next t => some (f t)
  | .fault _ => none
  | .refused _ => none

/-- STATE, STATUS, IRQ_STAT. -/
def flags (s : State) : Stage × Word × BitVec 3 := (s.blk.stage, s.blk.status s.par, s.blk.irqStat)

/-- WIN_LEN 4, WIN_STEP 1, TONE mode on slot 10, THRESH 0.5; `dbEn` is CTRL.DB_EN (spec/95 section 3.5). -/
def tinyCfg (dbEn : Bool) : Regs :=
  { Regs.reset with
    ctrl := if dbEn then 0xAA#8 else 0xA2#8, winLen := 4#16, winStep := 1#16, thresh := 0x3F000000#32 }

/-- The test configuration of spec/95 section 3.5: WIN_MIN 4, WIN_MAX 8, RFIFO_DEPTH 2. -/
def tiny (dbEn : Bool) (st : Stage) (run : Run) (fifo : List Word) : State :=
  { State.reset with
    par := ⟨4, 8, 2⟩
    blk := { Block.reset with stage := st, cfg := tinyCfg dbEn, run := run, fifo := fifo } }

/-- A run that has absorbed 1, 0, -1. -/
def three : Run := { Run.init with index := 3, samples := [0x3F800000#32, 0#32, 0xBF800000#32] }

/-- A SCAN that has detected 10 in window 0 (samples 1, 0, -1, 0) and in no other. -/
def detected : Run :=
  { Run.init with
    index := 4, samples := [0#32, 0xBF800000#32, 0#32], wcount := 1, dbValid := true, dbLast := 10#4, acc := true }

/-- V-RA1 to V-RA21. -/
theorem test_reads_at_reset :
    [Instr.rdId, .rdVersion, .rdCtrl, .rdWoCmd, .rdStatus, .rdIrqEn, .rdIrqStat, .rdWinLen, .rdWinStep, .rdDbGuard, .rdThresh,
      .rdRatio, .rdWoSample, .rdResult, .rdSampleCnt, .rdWinCnt, .rdCoef 15, .rdPower 15, .rdSymmap 0, .rdSymmap 1,
      .rdRsvdC8 0xC8#8, .rdRsvdD0 0xD0#8, .rdRsvdE0 0xFC#8].map (fun i => view i State.reset (·.resp)) =
    [0x544F4E44#32, 0x00010000#32, 0x8#32, 0#32, 0#32, 0#32, 0#32, 0x89D#32, 0x89D#32, 0x89D#32, 0x7F800000#32,
      0x7F800000#32, 0#32, 0#32, 0#32, 0#32, 0#32, 0#32, 0x76543210#32, 0xFEDCBA98#32, 0#32, 0#32, 0#32].map
        (fun w => some (.data w)) := by decide

/-- V-WR1 to V-WR12. -/
theorem test_config_writes :
    view (.wrCtrl 0xFFFFFFFF#32) State.reset (·.blk.cfg.ctrl) = some 0xFF#8 ∧
    view (.wrWinLen 0x12345678#32) State.reset (·.blk.cfg.winLen) = some 0x5678#16 ∧
    view (.wrWinStep 0xFFFF0001#32) State.reset (·.blk.cfg.winStep) = some 1#16 ∧
    view (.wrDbGuard 0xFFFFFFFF#32) State.reset (·.blk.cfg.dbGuard) = some 0xFFFFFFFF#32 ∧
    view (.wrIrqEn 0xFFFFFFF9#32) State.reset (·.blk.irqEn) = some 1#3 ∧
    view (.wrThresh 0x7FA00001#32) State.reset (·.blk.cfg.thresh) = some 0x7FA00001#32 ∧
    view (.wrRatio 0x40000000#32) State.reset (·.blk.cfg.ratio) = some 0x40000000#32 ∧
    view (.wrCoef 5 0x80000000#32) State.reset (fun t => (bankGet t.blk.cfg.coef 5, bankGet t.blk.cfg.coef 6)) =
      some (0x80000000#32, 0#32) ∧
    view (.wrSymmap 1 0x01234567#32) State.reset (fun t => (t.blk.cfg.symmap0, t.blk.cfg.symmap1)) =
      some (0x76543210#32, 0x01234567#32) := by decide

/-- V-WR13 to V-WR19: nothing but the completed write. -/
theorem test_read_only_writes :
    [Instr.wrRoIdVersion 0#8 5#32, .wrRoResult 1#32, .wrRoCounters 0x38#8 5#32, .wrRoPower 3 0x3F800000#32,
      .wrRsvdC8 0xC8#8 1#32, .wrRsvdD0 0xD0#8 0xFFFFFFFF#32, .wrRsvdE0 0xE0#8 1#32].all (fun i =>
        view i (tiny true .scan detected [0xAB#32]) (·.blk) = some (tiny true .scan detected [0xAB#32]).blk) = true := by
  decide

/-- V-LK1 to V-LK8: STATUS 0x401, IRQ_STAT 4, the register kept. -/
theorem test_locked_writes :
    [Instr.wrCtrl 0#32, .wrWinLen 3000#32, .wrWinStep 1000#32, .wrDbGuard 5#32, .wrThresh 0#32, .wrRatio 0#32,
      .wrCoef 0 0x3F800000#32, .wrSymmap 0 0#32].all (fun i =>
        view i (tiny true .scan Run.init []) (fun t => (flags t, t.blk.cfg)) =
          some ((.scan, 0x00000401#32, 4#3), (tiny true .scan Run.init []).blk.cfg)) = true := by decide

/-- Program P3 steps 2, 3, 6. -/
theorem test_write_one_to_clear :
    (let s : State := { State.reset with blk := { Block.reset with sticky := 0b011010#6, irqStat := 4#3, irqEn := 4#3 } }
     view (.wrStatus 0x00003F00#32) s flags = some (.idle, 0#32, 4#3) ∧
     view (.wrStatus 0x00000800#32) s flags = some (.idle, 0x00001200#32, 4#3) ∧
     view (.wrIrqStat 7#32) s (fun t => (flags t, t.blk.irq)) = some ((.idle, 0x00001A00#32, 0#3), false)) := by decide

/-- The matrix of spec/95 section 2.8, the columns IDLE and SCAN. -/
theorem test_commands :
    [Instr.nop, .startScan, .startOneshot, .endStream, .abort, .flush, .softReset, .cmdInvalid 7#32].map
      (fun i => (view i State.reset flags, view i { State.reset with blk := { Block.reset with stage := .scan } } flags)) =
    [(some (.idle, 0#32, 0#3), some (.scan, 1#32, 0#3)),
      (some (.scan, 1#32, 0#3), some (.scan, 0x1001#32, 4#3)),
      (some (.oneshot, 2#32, 0#3), some (.scan, 0x1001#32, 4#3)),
      (some (.idle, 0x1000#32, 4#3), some (.done, 0x13#32, 2#3)),
      (some (.idle, 0#32, 0#3), some (.idle, 0#32, 0#3)),
      (some (.idle, 0#32, 0#3), some (.scan, 1#32, 0#3)),
      (some (.idle, 0#32, 0#3), some (.idle, 0#32, 0#3)),
      (some (.idle, 0x1000#32, 4#3), some (.scan, 0x1001#32, 4#3))] := by decide

/-- V-CM10, and the command carried by WR_CMD. -/
theorem test_wr_cmd :
    view (.wrCmd 0x00000101#32) State.reset flags = some (.idle, 0x1000#32, 4#3) ∧
    view (.wrCmd 1#32) State.reset flags = some (.scan, 1#32, 0#3) := by decide

/-- V-CF5, V-CF6, V-CF11, V-CF15. -/
theorem test_cfg_ok :
    (let r (n s : BitVec 16) (c : BitVec 8) : Regs := { Regs.reset with winLen := n, winStep := s, ctrl := c }
     cfgOk Config.params true (r 2205#16 551#16 8#8) = false ∧ cfgOk Config.params true (r 2205#16 552#16 8#8) = true ∧
     cfgOk Config.params true (r 4410#16 1102#16 8#8) = false ∧ cfgOk Config.params false (r 4410#16 0#16 8#8) = true ∧
     cfgOk Config.params true (r 2205#16 2206#16 8#8) = false ∧
     cfgOk Config.params true (r 2205#16 2205#16 0x0B#8) = false) := by decide

/-- Spec/95 section 2.5 (P3 step 1): the bus error and nothing else. -/
theorem test_bad_accesses :
    [Instr.badAccessSz0 true 0x0C#8, .badAccessSz1 false 0x0C#8, .badAccessSz3 true 0x0C#8, .badAccessOdd true 0x0C#8,
      .badAccessHalf true 0x0C#8].all (fun i =>
        view i State.reset (fun t => (t.blk, t.resp)) = some (Block.reset, .busError 0x0C#8)) = true := by decide

/-- V-SP1: a sample in IDLE. -/
theorem test_sample_refused : view (.wrSample 0x3F800000#32) State.reset flags = some (.idle, 0x800#32, 4#3) := by decide

/-- P5 step 6: window 0 = [1, 0, -1, 0] has P10 = 4. -/
theorem test_sample_detects :
    view (.wrSample 0#32) (tiny false .scan three []) (fun t => (flags t, t.blk.fifo, bankGet t.blk.power 10)) =
      some ((.scan, 0x00010005#32, 1#3), [0x000000AB#32], 0x40800000#32) := by decide

/-- P5 step 9: the pop. -/
theorem test_pop :
    view .rdResult (tiny false .scan three [0xAB#32, 0x000100AB#32]) (fun t => (t.resp, t.blk.fifo)) =
      some (.data 0xAB#32, [0x000100AB#32]) := by decide

/-- The two counters after P5 step 6. -/
theorem test_counters :
    view .rdSampleCnt (tiny false .scan detected []) (·.resp) = some (.data 4#32) ∧
    view .rdWinCnt (tiny false .scan detected []) (·.resp) = some (.data 1#32) := by decide

/-- V-G2, V-G3, V-G3e, V-G4, V-G8, V-G10. -/
theorem test_goertzel :
    goertzel 0#32 [0x3F800000#32, 0#32, 0xBF800000#32, 0#32] = 0x40800000#32 ∧
    goertzel 0x40000000#32 (List.replicate 4 0x3F800000#32) = 0x41800000#32 ∧
    goertzel 0#32 [0x60AD78EC#32, 0#32, 0#32, 0#32] = 0x7F800000#32 ∧
    goertzel 0#32 [0x7FA00001#32, 0#32, 0#32, 0#32] = 0x7FC00000#32 ∧
    goertzel 0x3F800000#32 [0x00000001#32, 0#32, 0#32, 0#32] = 0#32 ∧
    goertzel 0#32 [0x3DCCCCCD#32, 0x3E4CCCCD#32, 0x3E99999A#32, 0x3ECCCCCD#32] = 0x3DA3D70C#32 := by decide

/-- Signs of an exact zero (V-G6: "RNE sums of +0 and -0 give +0") and infinite operands (R121: inf - inf; R130: +inf times a
positive power and times +0; R144: 0 * inf). -/
theorem test_special_operands :
    F32.add 0x00000000#32 0x80000000#32 = 0x00000000#32 ∧ F32.sub 0x80000000#32 0x80000000#32 = 0x00000000#32 ∧
    F32.sub 0x7F800000#32 0x7F800000#32 = 0x7FC00000#32 ∧ F32.mul 0x7F800000#32 0x40800000#32 = 0x7F800000#32 ∧
    F32.mul 0x7F800000#32 0x00000000#32 = 0x7FC00000#32 ∧ F32.mul 0x00000000#32 0x7F800000#32 = 0x7FC00000#32 := by decide

/-- A bank with one or two nonzero slots. -/
def bank2 (j : Slot) (x : Word) (k : Slot) (y : Word) : Bank := bankSet (bankSet zeroBank j x) k y

/-- V-CL5, V-CL8, V-CL12, V-CL15, V-CL19, V-CL20. -/
theorem test_classify :
    (let r (c : BitVec 8) (t q : Word) : Regs := { Regs.reset with ctrl := c, thresh := t, ratio := q }
     classifyDual (r 0#8 0x42C80000#32 0#32) (bankSet (bank2 0 0x7FC00000#32 1 0x44610000#32) 6 0x44610000#32) = .none ∧
     classify (r 0#8 0x42C80000#32 0#32) (bank2 3 0x43480000#32 7 0x43480000#32) = some (.detect 15#4 3#2 3#2) ∧
     classify (r 1#8 0x3F800000#32 0#32) (bank2 8 0x40E00000#32 9 0x40E00000#32) = some .none ∧
     classify (r 5#8 0x7F800000#32 0x40000001#32) (bank2 8 0x40800000#32 9 0x41000000#32) = some .none ∧
     classify (r 0xA2#8 0x42440000#32 0#32) (bank2 10 0x42480000#32 0 0#32) = some (.detect 10#4 0#2 0#2) ∧
     classify (r 0xA2#8 0x42440000#32 0#32) (bank2 10 0x42440000#32 0 0#32) = some .none) := by decide

/-- V-RW3, V-RW4, V-RW7, V-RW9. -/
theorem test_result_word :
    resultWord { Regs.reset with ctrl := 1#8 } 0 .none = 0x00000005#32 ∧
    resultWord Regs.reset 0 (.detect 8#4 2#2 0#2) = 0x00000283#32 ∧
    resultWord { Regs.reset with ctrl := 1#8 } 3 (.detect 1#4 0#2 0#2) = 0x00030017#32 ∧
    resultWord { Regs.reset with ctrl := 0xF2#8 } 65536 (.detect 15#4 0#2 0#2) = 0x000000FB#32 := by decide

/-- A placed word is the very next instruction from reset: V-RA1, and START_SCAN through CMD. -/
theorem test_step_runs_placed_word :
    (match step (State.reset.withFetchWord 16 0x200) with | .next t => t.resp | _ => .none) = .data 0x544F4E44#32 ∧
    (match step (State.reset.withFetchWord 32 1) with | .next t => t.blk.stage | _ => .idle) = .scan := by decide

/-! ### Witnesses: the hypotheses of the obligations are met together -/

theorem witness_DecodeEncodeRoundTrip :
    (Instr.rdRsvdC8 0xCC#8).wellFormed = true ∧ (Instr.badAccessHalf true 0xFE#8).wellFormed = true ∧
    (Instr.cmdInvalid 7#32).wellFormed = true := by decide

theorem witness_EncodeDecodeKeepsEveryBit : selLegal 0x6FC#11 = true ∧ selWrite 0x6FC#11 = true := by decide

theorem witness_StepRunsTheDecodedInstruction :
    ({ State.reset with host := [.busop 0x6D0#11 1#32] } : State).host = .busop 0x6D0#11 1#32 :: [] ∧
    State.reset.host = [] := ⟨rfl, rfl⟩

/-- The configuration of `tiny` passes both configuration checks. -/
theorem tiny_cfgOk : cfgOk ⟨4, 8, 2⟩ true (tinyCfg true) = true ∧ cfgOk ⟨4, 8, 2⟩ false (tinyCfg true) = true := by decide

theorem inv_tiny_fresh : (tiny true .scan Run.init []).Inv := by
  refine ⟨by decide, ?_, ⟨fun _ => tiny_cfgOk.1, fun _ => tiny_cfgOk.2⟩, ?_, ?_⟩ <;>
    simp [tiny, tinyCfg, Block.reset, Run.init, Block.FifoInv, Block.ScheduleInv, Block.DebounceInv,
      Block.running, Stage.running, windowsCompleted, Regs.winN, Regs.stepS]

theorem inv_tiny_oneshot : (tiny true .oneshot three []).Inv := by
  refine ⟨by decide, ?_, ⟨fun _ => tiny_cfgOk.1, fun _ => tiny_cfgOk.2⟩, ?_, ?_⟩ <;>
    simp [tiny, tinyCfg, three, Block.reset, Run.init, Block.FifoInv, Block.ScheduleInv, Block.DebounceInv,
      Block.running, Stage.running, windowsCompleted, Regs.winN, Regs.stepS]

/-- The invariant after the first detection, whatever VALUE it had and whether or not a gap came since. -/
theorem inv_tiny_after (gap : Bool) (last : BitVec 4) :
    (tiny true .scan { detected with dbGap := gap, dbLast := last } [0xAB#32]).Inv := by
  refine ⟨inv_tiny_fresh.params, ?_, ⟨fun _ => tiny_cfgOk.1, fun _ => tiny_cfgOk.2⟩, ?_, ?_⟩ <;>
    simp [tiny, tinyCfg, detected, Block.reset, Run.init, Block.FifoInv, Block.ScheduleInv, Block.DebounceInv,
      Block.running, Stage.running, windowsCompleted, Regs.winN, Regs.stepS]
  decide

theorem inv_tiny_detected : (tiny true .scan detected [0xAB#32]).Inv := inv_tiny_after false 10#4

theorem witness_ResetIsOneEffect :
    ({ State.reset with host := [.rst] } : State).host = .rst :: [] ∧
    (let s : State := { tiny true .scan Run.init [] with host := [.rstInFlight 0x630#11 0#32] }
     s.Inv ∧ s.host = .rstInFlight 0x630#11 0#32 :: []) :=
  ⟨rfl, ⟨inv_tiny_fresh.params, inv_tiny_fresh.fifo, inv_tiny_fresh.config, inv_tiny_fresh.schedule,
    inv_tiny_fresh.debounce⟩, rfl⟩

theorem witness_BadAccessIsABusErrorOnly :
    (0x110#11).extractLsb' 8 2 ≠ 2#2 ∧ (0x201#11).extractLsb' 0 2 ≠ 0#2 ∧ (0x6FE#11).extractLsb' 0 2 ≠ 0#2 := by decide

theorem witness_RoutingTakesTheOffset :
    (BusAccess.mk true 2#2 (Config.baseAddr + (0xFF#8).setWidth 32) 0#32).addr = Config.baseAddr + (0xFF#8).setWidth 32 ∧
    0xFF < ((BusAccess.mk true 2#2 (Config.baseAddr + 0x100#32) 0#32).addr - Config.baseAddr).toNat := by
  refine ⟨rfl, ?_⟩
  have h : Config.baseAddr + 0x100#32 - Config.baseAddr = 0x100#32 := by bv_omega
  simp only [h]
  decide

theorem witness_ResultReadPops :
    State.reset.blk.fifo = [] ∧ (tiny true .scan Run.init [0xAB#32, 3#32]).blk.fifo = 0xAB#32 :: [3#32] := ⟨rfl, rfl⟩

/-- WriteOnlyAndReservedReadZero and ReadOnlyAndReservedWritesDoNothing: the edges of their offset ranges. -/
theorem witness_reserved_and_read_only_offsets :
    ([0xC8, 0xFC].all fun o : Nat => decide (o % 4 = 0 ∧ 0xC8 ≤ o)) = true ∧
    ([0x00, 0x04, 0x34, 0x3C, 0x80, 0xBC, 0xC8, 0xFC].all fun o : Nat =>
      decide (o % 4 = 0 ∧ (o ≤ 0x04 ∨ (0x34 ≤ o ∧ o ≤ 0x3C) ∨ (0x80 ≤ o ∧ o ≤ 0xBC) ∨ 0xC8 ≤ o))) = true := by decide

theorem witness_PureReadsHaveNoSideEffect : (Instr.rdPower 3).isPureRead = true := rfl

/-- ConfigurationWritesStore, SymbolMapEntries, SampleOutsideARunIsRefused, StartChecksAndBeginsARun. -/
theorem witness_outside_a_run :
    State.reset.blk.stage = .idle ∧ (tiny true .done Run.init []).blk.stage = .done := ⟨rfl, rfl⟩

/-- Boundary offsets of R72's set, a WERR already set in the second clause, and the third clause's two causes. -/
theorem witness_LockedWritesAreRefusedWhileRunning :
    (tiny true .scan Run.init []).blk.stage = .scan ∧ (tiny true .oneshot Run.init []).blk.stage = .oneshot ∧
    ([0x08#8, 0x1C#8, 0x2C#8, 0x40#8, 0x7C#8, 0xC0#8, 0xC4#8].all lockedOffset) = true ∧
    ([0x00#8, 0x0C#8, 0x18#8, 0x30#8, 0x3C#8, 0x80#8, 0xBC#8, 0xC8#8, 0xFC#8].all
      fun o => !lockedOffset o && decide (o.toNat % 4 = 0)) = true ∧
    (let s : State := { State.reset with blk := { Block.reset with stage := .scan, sticky := 0b000100#6 } }
     view (decodeBusop (mkSel true 2#2 0x14#8) 0#32) s (·.blk.flag .werr) = some true) ∧
    (1#2 ≠ 2#2) ∧ (0x0A#8).toNat % 4 ≠ 0 := by decide

theorem witness_RefusedCommandsSetCmderrOnly :
    (tiny true .scan Run.init []).blk.stage = .scan ∧ (tiny true .oneshot Run.init []).blk.stage = .oneshot ∧
    State.reset.blk.stage = .idle ∧ (tiny true .done Run.init []).blk.stage = .done ∧ 7 ≤ (7#32).toNat :=
  ⟨rfl, rfl, rfl, rfl, by decide⟩

/-- Both edges of the window range and of the step range, and a failure on each side. -/
theorem witness_StartChecksAndBeginsARun :
    (let ok (n s : Nat) (c : BitVec 8) : Bool :=
      decide ((c.extractLsb' 0 2 ≠ 3#2 ∧ Config.params.winMin ≤ n ∧ n ≤ Config.params.winMax) ∧ (n + 3) / 4 ≤ s ∧ s ≤ n)
     ok 2205 552 8#8 = true ∧ ok 4410 4410 8#8 = true ∧ ok 2204 2204 8#8 = false ∧ ok 4411 4411 8#8 = false ∧
     ok 2205 551 8#8 = false ∧ ok 2205 2206 8#8 = false ∧ ok 2205 2205 3#8 = false) ∧
    State.reset.blk.stage = .idle := by decide

theorem witness_EndStreamEntersDone :
    (tiny true .oneshot three []).Inv ∧ (tiny true .oneshot three []).blk.stage = .oneshot ∧
    (tiny true .scan Run.init []).Inv ∧ (tiny true .scan Run.init []).blk.stage = .scan ∧
    (tiny true .scan Run.init []).blk.run.index < (tiny true .scan Run.init []).blk.cfg.winN :=
  ⟨inv_tiny_oneshot, rfl, inv_tiny_fresh, rfl, by decide⟩

/-- An instruction that answers a next state: StageTransitions, AtMostOneResultPerOperation and WhoWritesWhat, each with a sample
that completes a window. -/
theorem witness_next_state : ∃ t, exec (.wrSample 0#32) (tiny true .scan three []) = .next t := ⟨_, rfl⟩

/-- Each case of CountersMoveOnlyWithSamples completes: a sample that ends a window and one that does not, in both modes; each
clearing; and, kept, a START refused in a run, a START whose check fails (MODE = 3), and a refused sample. -/
theorem witness_CountersMoveOnlyWithSamples :
    (let ends (s : State) : Bool := let b := s.blk
       decide ((b.stage = .scan ∧ b.cfg.winN ≤ b.run.index + 1 ∧ (b.run.index + 1 - b.cfg.winN) % b.cfg.stepS = 0) ∨
         (b.stage = .oneshot ∧ b.run.index + 1 = b.cfg.winN))
     let counters (i : Instr) (s : State) : Option (Nat × Nat) := view i s fun t => (t.blk.run.index, t.blk.run.wcount)
     let bad : State := let s := tiny true .done three []; { s with blk := s.blk.setCfg { s.blk.cfg with ctrl := 3#8 } }
     ends (tiny true .scan three []) = true ∧ counters (.wrSample 0#32) (tiny true .scan three []) = some (4, 1) ∧
     ends (tiny true .oneshot three []) = true ∧ counters (.wrSample 0#32) (tiny true .oneshot three []) = some (4, 1) ∧
     ends (tiny true .scan Run.init []) = false ∧ counters (.wrSample 0#32) (tiny true .scan Run.init []) = some (1, 0) ∧
     ends (tiny true .oneshot Run.init []) = false ∧
     counters (.wrSample 0#32) (tiny true .oneshot Run.init []) = some (1, 0) ∧
     counters .softReset (tiny true .scan three []) = some (0, 0) ∧
     cfgOk ⟨4, 8, 2⟩ true (tinyCfg true) = true ∧ counters (.wrCmd 1#32) (tiny true .done three []) = some (0, 0) ∧
     cfgOk ⟨4, 8, 2⟩ false (tinyCfg true) = true ∧ counters .startOneshot (tiny true .idle three []) = some (0, 0) ∧
     counters .startScan (tiny true .scan three []) = some (3, 0) ∧
     cfgOk bad.par true bad.blk.cfg = false ∧ counters .startScan bad = some (3, 0) ∧
     counters (.wrSample 0#32) (tiny true .done three []) = some (3, 0)) := by decide

/-- Finite operands at both ends of the range, an exact zero sum of opposite operands and of two negative zeros, and an exact
zero difference. -/
theorem witness_ArithmeticIsCorrectlyRounded :
    F32.isFinite 0x7F7FFFFF#32 = true ∧ F32.isFinite 0x80000001#32 = true ∧
    F32.value 0x80000001#32 + F32.value 0x00000001#32 = 0 ∧ F32.value 0x80000000#32 + F32.value 0x80000000#32 = 0 ∧
    F32.value 0x80000001#32 - F32.value 0x80000001#32 = 0 := by
  refine ⟨by decide, by decide, ?_, ?_, ?_⟩ <;> simp [F32.value, F32.sign, F32.expo, F32.frac]

/-- OnlyTheCanonicalNaNIsProduced, ComparisonsAreOfRealValues: a NaN operand, a NaN result of non-NaN operands, a NaN power, and
a NaN sample that completes a window in either mode and leaves NaN in POWER. -/
theorem witness_nan :
    F32.isNaN 0x7FA00001#32 = true ∧ F32.isNaN (F32.add 0x7F800000#32 0xFF800000#32) = true ∧
    F32.isNaN (F32.mul 0#32 0x7F800000#32) = true ∧ F32.isNaN (F32.sub 0x7F800000#32 0x7F800000#32) = true ∧
    F32.isNaN (goertzel 0#32 [0x7F800000#32, 0#32]) = true ∧ F32.isFinite 0#32 = true ∧
    (let power5 (st : Stage) : Option Word :=
       view (.wrSample 0x7FA00001#32) (tiny true st three []) fun t => bankGet t.blk.power 5
     (tiny true .scan three []).blk.run.index + 1 = (tiny true .scan three []).blk.cfg.winN ∧
     power5 .scan = some 0x7FC00000#32 ∧ power5 .oneshot = some 0x7FC00000#32) := by decide

theorem witness_ArgmaxIsTheLowestStrongestSlot :
    (0 : Slot) ≤ 3 ∧ F32.isNaN (bankGet (bank2 0 0x7FC00000#32 1 1#32) 0) = true ∧
    F32.isNaN (bankGet zeroBank 0) = false ∧ (7 : Slot) ≤ 7 := by decide

theorem witness_ClassificationByMode :
    Regs.reset.ctrl.extractLsb' 0 2 = 0#2 ∧ (0x05#8).extractLsb' 0 2 = 1#2 ∧ (0xA2#8).extractLsb' 0 2 = 2#2 := by decide

/-- A detection in each mode, and a bank of NaN that every mode classifies. -/
theorem witness_ThresholdIsAlwaysReject :
    (let r (c : BitVec 8) : Regs := { Regs.reset with ctrl := c, thresh := 0#32 }
     (r 0#8).mode = .dual ∧ classify (r 0#8) (bank2 3 0x43480000#32 7 0x43480000#32) = some (.detect 15#4 3#2 3#2) ∧
     (r 1#8).mode = .bin ∧ (r 1#8).gateMargin = false ∧
     classify (r 1#8) (bank2 8 0x40E00000#32 9 0x41000000#32) = some (.detect 1#4 0#2 0#2) ∧
     classify (r 1#8) (bank2 8 0x40E00000#32 9 0#32) = some (.detect 0#4 0#2 0#2) ∧
     (r 0xA2#8).mode = .tone ∧ classify (r 0xA2#8) (bank2 10 0x42480000#32 0 0#32) = some (.detect 10#4 0#2 0#2) ∧
     classify (r 1#8) (bankMap (fun _ => 0x7FC00000#32) zeroBank) = some .none) ∧
    (∀ j : Slot, F32.isNaN (bankGet (bankMap (fun _ => 0x7FC00000#32) zeroBank) j) = true) := by decide

theorem witness_WindowCompletesAtItsLastSample :
    completedWindow .scan 4 1 3 = some 0 ∧ completedWindow .scan 4 4 7 = some 1 ∧ completedWindow .oneshot 4 0 3 = some 0 ∧
    completedWindow .scan 4 4 6 = none := by decide

/-- The three disjuncts: a part window, a SCAN position between completions, a ONESHOT part window. -/
theorem witness_SampleInsideAWindowIsAbsorbed :
    (let n := (tiny true .scan Run.init []).blk.cfg.winN
     (tiny true .scan Run.init []).blk.stage = .scan ∧ (tiny true .scan Run.init []).blk.run.index + 1 < n ∧
     (4 + 1 - 4) % 3 ≠ 0 ∧
     (tiny true .oneshot Run.init []).blk.stage = .oneshot ∧ (tiny true .oneshot Run.init []).blk.run.index + 1 ≠ n) := by
  decide

/-- Window 0 of [1, 0, -1, NaN]: silent, with a NaN power. -/
theorem witness_SilentScanWindow :
    (let b := (tiny true .scan three []).blk
     b.stage = .scan ∧ b.cfg.winN ≤ b.run.index + 1 ∧ (b.run.index + 1 - b.cfg.winN) % b.cfg.stepS = 0 ∧
     classify b.cfg (powers b.cfg.coef (lastSamples b.cfg.winN (b.run.samples ++ [0x7FC00000#32]))) = some .none) := by decide

/-- Suppressed (window 1 repeats 10 with no gap); emitted with room; emitted with the FIFO full. -/
theorem witness_DetectingScanWindow :
    (let ok (s : State) (x : Word) : Bool :=
      let b := s.blk
      decide (b.stage = .scan ∧ b.cfg.winN ≤ b.run.index + 1 ∧ (b.run.index + 1 - b.cfg.winN) % b.cfg.stepS = 0 ∧
        classify b.cfg (powers b.cfg.coef (lastSamples b.cfg.winN (b.run.samples ++ [x]))) = some (.detect 10#4 0#2 0#2))
     ok (tiny true .scan detected [0xAB#32]) 0x3F800000#32 = true ∧
     suppressed (tiny true .scan detected []).blk.cfg detected 1 10#4 = true ∧
     ok (tiny false .scan three []) 0#32 = true ∧ ok (tiny false .scan three [0xAB#32, 0xAB#32]) 0#32 = true ∧
     (tiny false .scan three [0xAB#32, 0xAB#32]).blk.fifo.length = (tiny false .scan three []).par.rfifoDepth) := by decide

/-- A window that detects, one that does not, and a full FIFO. -/
theorem witness_OneshotCompletes :
    (let b := (tiny true .oneshot three []).blk
     b.stage = .oneshot ∧ b.run.index + 1 = b.cfg.winN ∧
     classify b.cfg (powers b.cfg.coef (lastSamples b.cfg.winN (b.run.samples ++ [0#32]))) =
       some (.detect 10#4 0#2 0#2) ∧
     classify b.cfg (powers b.cfg.coef (lastSamples b.cfg.winN (b.run.samples ++ [0x7FC00000#32]))) = some .none) ∧
    (tiny true .oneshot three [1#32, 1#32]).blk.fifo.length = (tiny true .oneshot three []).par.rfifoDepth := by decide

/-- `tiny` in SCAN, with DB_EN = 1 and this DB_GUARD. -/
def guardedBy (g : Word) (run : Run) (fifo : List Word) : State :=
  { tiny true .scan run fifo with
    blk := { (tiny true .scan run fifo).blk with cfg := { tinyCfg true with dbGuard := g } } }

/-- DB_GUARD is in no clause of the invariant. -/
theorem inv_guardedBy {run : Run} {fifo : List Word} (g : Word) (h : (tiny true .scan run fifo).Inv) :
    (guardedBy g run fifo).Inv :=
  ⟨h.params, h.fifo, h.config, h.schedule, h.debounce⟩

theorem inv_tiny_three : (tiny true .scan three []).Inv := by
  refine ⟨by decide, ?_, ⟨fun _ => tiny_cfgOk.1, fun _ => tiny_cfgOk.2⟩, ?_, ?_⟩ <;>
    simp [tiny, tinyCfg, three, Block.reset, Run.init, Block.FifoInv, Block.ScheduleInv, Block.DebounceInv,
      Block.running, Stage.running, windowsCompleted, Regs.winN, Regs.stepS]

/-- The hypotheses of DebounceIdempotence that can be evaluated, for a window that detects 10. -/
def detectsTen (s : State) (x : Word) : Bool :=
  let b := s.blk
  decide (b.stage = .scan ∧ b.cfg.winN ≤ b.run.index + 1 ∧ (b.run.index + 1 - b.cfg.winN) % b.cfg.stepS = 0 ∧
    classify b.cfg (powers b.cfg.coef (b.run.samples ++ [x])) = some (.detect 10#4 0#2 0#2) ∧ b.cfg.dbEn = true ∧
    b.fifo.length < s.par.rfifoDepth)

/-- Suppressed, with DB_GUARD = S, the least guard that suppresses. -/
theorem witness_DebounceIdempotence_suppressed :
    (guardedBy 1#32 detected [0xAB#32]).Inv ∧ detectsTen (guardedBy 1#32 detected [0xAB#32]) 0x3F800000#32 = true ∧
    (let b := (guardedBy 1#32 detected [0xAB#32]).blk
     b.cfg.stepS ≤ b.cfg.dbGuard.toNat ∧ b.run.dbValid = true ∧ b.run.dbLast = 10#4 ∧ b.run.dbGap = false) :=
  ⟨inv_guardedBy _ inv_tiny_detected, by decide, by decide⟩

/-- Emitted with DB_GUARD = S - 1, the largest guard below S. -/
theorem witness_DebounceIdempotence_short_guard :
    (guardedBy 0#32 detected [0xAB#32]).Inv ∧ detectsTen (guardedBy 0#32 detected [0xAB#32]) 0x3F800000#32 = true ∧
    (let b := (guardedBy 0#32 detected [0xAB#32]).blk
     b.cfg.dbGuard.toNat < b.cfg.stepS ∧ b.run.dbValid = true ∧ b.run.dbLast = 10#4 ∧ b.run.dbGap = false) :=
  ⟨inv_guardedBy _ inv_tiny_detected, by decide, by decide⟩

/-- Emitted after a gap. -/
theorem witness_DebounceIdempotence_gap :
    (tiny true .scan { detected with dbGap := true } [0xAB#32]).Inv ∧
    detectsTen (tiny true .scan { detected with dbGap := true } [0xAB#32]) 0x3F800000#32 = true :=
  ⟨inv_tiny_after true 10#4, by decide⟩

/-- Emitted because the last detection had another VALUE. -/
theorem witness_DebounceIdempotence_other_value :
    (tiny true .scan { detected with dbLast := 3#4 } [0xAB#32]).Inv ∧
    detectsTen (tiny true .scan { detected with dbLast := 3#4 } [0xAB#32]) 0x3F800000#32 = true ∧ (3#4 : BitVec 4) ≠ 10#4 :=
  ⟨inv_tiny_after false 3#4, by decide, by decide⟩

/-- Emitted as the first detection of the run. -/
theorem witness_DebounceIdempotence_first :
    (tiny true .scan three []).Inv ∧ detectsTen (tiny true .scan three []) 0#32 = true ∧ three.dbValid = false :=
  ⟨inv_tiny_three, by decide, rfl⟩

/-- A set sticky bit and a set event bit, kept by a command that is not SOFT_RESET and no W1C write. -/
theorem witness_FlagsAreClearedByTheirW1cOnly :
    (let s : State := { State.reset with blk := { Block.reset with sticky := 0b001000#6, irqStat := 4#3 } }
     s.blk.flag .serr = true ∧ s.blk.pending .err = true ∧ (∃ t, exec .abort s = .next t) ∧
     Instr.abort.command ≠ some .softReset ∧ (∀ d, Instr.abort ≠ .wrStatus d) ∧ ∀ d, Instr.abort ≠ .wrIrqStat d) := by
  refine ⟨rfl, rfl, ⟨_, rfl⟩, by decide, ?_, ?_⟩ <;> simp

/-- Each cause, set by an operation from a state where it is clear. -/
theorem witness_ErrorCauses :
    view (.wrSample 0#32) (tiny false .scan three [1#32, 1#32]) (·.blk.flag .ovf) = some true ∧
    view .startScan { State.reset with par := ⟨1, 8, 2⟩ } (·.blk.flag .cfgerr) = some true ∧
    view (.wrCtrl 0#32) (tiny true .scan Run.init []) (·.blk.flag .werr) = some true ∧
    view (.wrSample 0#32) State.reset (·.blk.flag .serr) = some true ∧
    view .endStream State.reset (·.blk.flag .cmderr) = some true ∧
    view (.wrSample 0x7FC00000#32) (tiny true .scan three []) (·.blk.flag .nanseen) = some true ∧
    ([ErrBit.ovf, .cfgerr, .werr, .serr, .cmderr, .nanseen].all fun e =>
      !(tiny true .scan three []).blk.flag e && !State.reset.blk.flag e) = true := by decide

theorem witness_ConfigurationIsConstantDuringARun :
    (tiny true .scan three []).blk.running = true ∧ ∃ t, exec (.wrCtrl 0#32) (tiny true .scan three []) = .next t :=
  ⟨rfl, _, rfl⟩

/-- InvariantIsKept, EveryOperationCompletes: a step from a state that meets the invariant. -/
theorem witness_InvariantIsKept :
    (let s : State := { tiny true .scan detected [0xAB#32] with host := [.busop 0x630#11 0x3F800000#32] }
     s.Inv ∧ (∃ t, step s = .next t) ∧ s.blk.cfg.mode ≠ .invalid) :=
  ⟨⟨inv_tiny_detected.params, inv_tiny_detected.fifo, inv_tiny_detected.config, inv_tiny_detected.schedule,
    inv_tiny_detected.debounce⟩, ⟨_, rfl⟩, by decide⟩

/-- EveryOperationCompletes, the last clause: both disjuncts. -/
theorem witness_mode_invalid :
    (let b (st : Stage) : Block := { Block.reset with
      stage := st, cfg := { Regs.reset with ctrl := 3#8, winLen := 4#16, winStep := 1#16 }, run := three }
     (b .scan).cfg.mode = .invalid ∧ (b .scan).stage = .scan ∧ (b .scan).cfg.winN ≤ (b .scan).run.index + 1 ∧
     ((b .scan).run.index + 1 - (b .scan).cfg.winN) % (b .scan).cfg.stepS = 0 ∧
     (b .oneshot).cfg.mode = .invalid ∧ (b .oneshot).stage = .oneshot ∧
     (b .oneshot).run.index + 1 = (b .oneshot).cfg.winN) := by decide

theorem witness_ScanBounds :
    (tiny true .scan detected [0xAB#32]).Inv ∧ (tiny true .scan detected [0xAB#32]).blk.stage = .scan ∧
    (let s := tiny true .scan detected [0xAB#32]
     1 * s.blk.cfg.stepS < s.blk.run.index ∧ s.blk.run.index < 1 * s.blk.cfg.stepS + s.blk.cfg.winN) :=
  ⟨inv_tiny_detected, rfl, by decide⟩

end Sys2Proof.Tests
end

section
/-! SUPPORT. The value and the size of a binary32 pattern (Machine/Float.lean, Safety.lean), NaN results, and the comparisons
(spec/00_scope.md R10, R11). -/

namespace Sys2Proof.Machine.F32

/-! ### Values as integers -/

/-- The unit in which an exact magnitude is counted: 2^-149, the least subnormal, times 2^-sh. -/
def unit (sh : Nat) : ℚ := 2 ^ (-149 - sh : ℤ)

theorem unit_pos (sh : Nat) : 0 < unit sh := by unfold unit; positivity

theorem unit_zero : unit 0 = 2 ^ (-149 : ℤ) := rfl

/-- The rational value of a pattern is `scaled` in units of the least subnormal. -/
theorem value_eq_scaled (w : Word) : value w = scaled w * unit 0 := by
  have hm : (if expo w = 0 then (frac w : ℚ) * 2 ^ (-149 : ℤ)
      else (1 + frac w / 2 ^ 23) * 2 ^ ((expo w : ℤ) - 127)) = scaledMag w * 2 ^ (-149 : ℤ) := by
    unfold scaledMag
    split
    · rfl
    · next he =>
      obtain ⟨e, he⟩ := Nat.exists_eq_succ_of_ne_zero he
      have hp : (2 : ℚ) ^ ((expo w : ℤ) - 127) = 2 ^ 23 * 2 ^ e * 2 ^ (-149 : ℤ) := by
        rw [← zpow_natCast, ← zpow_natCast, ← zpow_add₀ two_ne_zero, ← zpow_add₀ two_ne_zero]
        congr 1
        omega
      rw [hp, he]
      push_cast [Nat.succ_sub_one]
      ring
  simp only [value, scaled, hm, unit_zero]
  split <;> simp

theorem value_lt_iff (a b : Word) : value a < value b ↔ scaled a < scaled b := by
  rw [value_eq_scaled, value_eq_scaled, mul_lt_mul_iff_left₀ (unit_pos 0), Int.cast_lt]

theorem value_le_iff (a b : Word) : value a ≤ value b ↔ scaled a ≤ scaled b := by
  rw [value_eq_scaled, value_eq_scaled, mul_le_mul_iff_left₀ (unit_pos 0), Int.cast_le]

theorem scaled_eq_zero_iff (w : Word) : scaled w = 0 ↔ scaledMag w = 0 := by
  unfold scaled
  split <;> omega

theorem value_eq_zero_iff (w : Word) : value w = 0 ↔ scaledMag w = 0 := by
  rw [value_eq_scaled, mul_eq_zero_iff_right (unit_pos 0).ne', Int.cast_eq_zero, scaled_eq_zero_iff]

theorem value_neg (w : Word) : value (neg w) = -value w := by
  simp [value_eq_scaled]

/-! ### The size of a magnitude -/

/-- A magnitude is below the top of its binade. -/
theorem scaledMag_lt (w : Word) : scaledMag w < 2 ^ 23 * 2 ^ expo w := by
  have hf := frac_lt w
  unfold scaledMag
  split
  · next he => simpa [he] using hf
  · next he =>
    obtain ⟨e, he⟩ := Nat.exists_eq_succ_of_ne_zero he
    calc (2 ^ 23 + frac w) * 2 ^ (expo w - 1) < (2 ^ 23 * 2) * 2 ^ (expo w - 1) :=
          Nat.mul_lt_mul_of_pos_right (by omega) (by positivity)
      _ = 2 ^ 23 * 2 ^ expo w := by rw [he, Nat.succ_sub_one, pow_succ' 2 e, mul_assoc]

/-- A magnitude is a multiple of the spacing of its binade. -/
theorem two_pow_dvd_scaledMag (w : Word) : 2 ^ (expo w - 1) ∣ scaledMag w := by
  unfold scaledMag
  split
  · next he => simp [he]
  · exact Nat.dvd_mul_left _ _

/-- Every finite magnitude is below that of an infinity. -/
theorem scaledMag_lt_of_isFinite {w : Word} (h : isFinite w = true) : scaledMag w < 2 ^ 23 * 2 ^ 254 := by
  have he : expo w ≤ 254 := by
    have := expo_lt w
    simp only [isFinite, bne_iff_ne] at h
    omega
  calc scaledMag w < 2 ^ 23 * 2 ^ expo w := scaledMag_lt w
    _ ≤ 2 ^ 23 * 2 ^ 254 := Nat.mul_le_mul_left _ (Nat.pow_le_pow_right (by omega) he)

/-! ### Comparisons (R11) -/

theorem gt_eq_false_of_isNaN {a b : Word} (h : isNaN a = true ∨ isNaN b = true) : gt a b = false := by
  obtain h | h := h <;> simp [gt, h]

theorem ge_eq_false_of_isNaN {a b : Word} (h : isNaN a = true ∨ isNaN b = true) : ge a b = false := by
  obtain h | h := h <;> simp [ge, h]

theorem gt_iff_scaled {a b : Word} (ha : isNaN a = false) (hb : isNaN b = false) :
    gt a b = true ↔ scaled b < scaled a := by
  simp [gt, ha, hb]

theorem ge_iff_scaled {a b : Word} (ha : isNaN a = false) (hb : isNaN b = false) :
    ge a b = true ↔ scaled b ≤ scaled a := by
  simp [ge, ha, hb]

@[simp] theorem isNaN_inf (s : Bool) : isNaN (inf s) = false := not_isNaN_of_isInf (isInf_inf s)

@[simp] theorem scaled_inf (s : Bool) : scaled (inf s) = if s then -(2 ^ 23 * 2 ^ 254) else 2 ^ 23 * 2 ^ 254 := by
  cases s <;> decide

/-- A finite pattern lies strictly between the infinities. -/
theorem scaled_mem_of_isFinite {w : Word} (h : isFinite w = true) :
    scaled (inf true) < scaled w ∧ scaled w < scaled (inf false) := by
  have hw := scaledMag_lt_of_isFinite h
  simp only [scaled_inf, if_true, Bool.false_eq_true, if_false]
  unfold scaled
  split <;> omega

theorem compare_infinities_of_isFinite {a : Word} (ha : isFinite a = true) :
    gt (inf false) a = true ∧ ge (inf false) a = true ∧ gt a (inf false) = false ∧ ge a (inf false) = false ∧
    gt a (inf true) = true ∧ ge a (inf true) = true ∧ gt (inf true) a = false ∧ ge (inf true) a = false := by
  obtain ⟨hlo, hhi⟩ := scaled_mem_of_isFinite ha
  have hn := not_isNaN_of_isFinite ha
  simp only [gt, ge, hn, isNaN_inf, Bool.not_false, Bool.true_and, decide_eq_true_eq, decide_eq_false_iff_not]
  omega

/-! ### NaN results (R10, R67) -/

theorem add_eq_nan_of_isNaN {a b : Word} (h : isNaN a = true ∨ isNaN b = true) : add a b = nan := by
  obtain h | h := h <;> simp [add, h]

theorem sub_eq_nan_of_isNaN {a b : Word} (h : isNaN a = true ∨ isNaN b = true) : sub a b = nan :=
  add_eq_nan_of_isNaN (by rwa [isNaN_neg])

theorem mul_eq_nan_of_isNaN {a b : Word} (h : isNaN a = true ∨ isNaN b = true) : mul a b = nan := by
  obtain h | h := h <;> simp [mul, h]

/-- A sum that is NaN is the canonical one: every other outcome of an addition is an infinity or a rounding. -/
theorem add_eq_nan_of_isNaN_add {a b : Word} (h : isNaN (add a b) = true) : add a b = nan := by
  obtain ⟨-, e⟩ | ⟨-, -, -, e⟩ | ⟨-, -, -, e⟩ | ⟨-, -, e⟩ | ⟨-, -, e⟩ := add_cases a b
  · exact e
  · exact e
  all_goals simp [e] at h

theorem sub_eq_nan_of_isNaN_sub {a b : Word} (h : isNaN (sub a b) = true) : sub a b = nan :=
  add_eq_nan_of_isNaN_add h

/-- A product that is NaN is the canonical one. -/
theorem mul_eq_nan_of_isNaN_mul {a b : Word} (h : isNaN (mul a b) = true) : mul a b = nan := by
  obtain ⟨-, e⟩ | ⟨-, -, -, e⟩ | ⟨-, -, -, e⟩ | ⟨-, -, -, e⟩ | ⟨-, -, -, e⟩ | ⟨-, -, e⟩ := mul_cases a b
  · exact e
  · exact e
  · exact e
  all_goals simp [e] at h

end Sys2Proof.Machine.F32

namespace Sys2Proof.Machine

/-- A power is the result of a subtraction, so a NaN power is the canonical NaN. -/
theorem goertzel_eq_nan_of_isNaN {c : Word} {xs : List Word} (h : F32.isNaN (goertzel c xs) = true) :
    goertzel c xs = F32.nan := F32.sub_eq_nan_of_isNaN_sub h

/-- A sample that completes a window leaves the window's powers in POWER (R122, R123). -/
theorem power_of_execWrSample {s t : State} {x : Word} {k : Nat} (h : execWrSample x s = .next t)
    (hrun : s.blk.running = true)
    (hk : completedWindow s.blk.stage s.blk.cfg.winN s.blk.cfg.stepS s.blk.run.index = some k) :
    t.blk.power = powers s.blk.cfg.coef (s.blk.windowWith x) := by
  obtain ⟨hr, -⟩ | ⟨-, hc, -⟩ | ⟨k', -, -, -, e⟩ | ⟨k', r, -, -, -, e⟩ := execWrSample_cases x s
  · simp [hrun] at hr
  · simp [hk] at hc
  · simp [e] at h
  · rw [e] at h
    cases h
    simp [Block.complete_keeps]

/-- R120: the sample that makes a window complete. -/
theorem completedWindow_isSome {b : Block}
    (h : (b.stage = .scan ∧ b.cfg.winN ≤ b.run.index + 1 ∧ (b.run.index + 1 - b.cfg.winN) % b.cfg.stepS = 0) ∨
      (b.stage = .oneshot ∧ b.run.index + 1 = b.cfg.winN)) :
    b.running = true ∧ ∃ k, completedWindow b.stage b.cfg.winN b.cfg.stepS b.run.index = some k := by
  obtain ⟨hst, hn, hs⟩ | ⟨hst, hn⟩ := h
  · exact ⟨by simp [Block.running, hst, Stage.running], _, by rw [hst]; exact if_pos ⟨hn, hs⟩⟩
  · exact ⟨by simp [Block.running, hst, Stage.running], _, by rw [hst]; exact if_pos hn⟩

end Sys2Proof.Machine
end

section
/-! PROOF. The statements about comparisons and NaN (spec/00_scope.md R10, R11). -/

namespace Sys2Proof.Proofs

open Sys2Proof.Machine

/-- Settles O37: a finite value lies strictly between the two infinities, and `value` orders as `scaled` does. -/
theorem comparisonsAreOfRealValues : Obligations.ComparisonsAreOfRealValues := by
  unfold Obligations.ComparisonsAreOfRealValues
  refine ⟨fun a b ha hb => ?_, fun a ha => F32.compare_infinities_of_isFinite ha, by decide, fun a b h =>
    ⟨F32.gt_eq_false_of_isNaN h, F32.ge_eq_false_of_isNaN h⟩⟩
  have hna := F32.not_isNaN_of_isFinite ha
  have hnb := F32.not_isNaN_of_isFinite hb
  exact ⟨by rw [F32.gt_iff_scaled hna hnb, F32.value_lt_iff], by rw [F32.ge_iff_scaled hna hnb, F32.value_le_iff]⟩

/-- Settles O36: a sum, a product, a power and so a POWER register after a completed window is a rounding, an infinity or the
canonical NaN. -/
theorem onlyTheCanonicalNaNIsProduced : Obligations.OnlyTheCanonicalNaNIsProduced := by
  unfold Obligations.OnlyTheCanonicalNaNIsProduced
  refine ⟨fun a b h => ?_, fun a b => ?_, fun c xs => goertzel_eq_nan_of_isNaN, fun x s t h hwin j hj => ?_⟩
  · exact ⟨F32.add_eq_nan_of_isNaN h, F32.sub_eq_nan_of_isNaN h, F32.mul_eq_nan_of_isNaN h⟩
  · exact ⟨F32.add_eq_nan_of_isNaN_add, F32.sub_eq_nan_of_isNaN_sub, F32.mul_eq_nan_of_isNaN_mul⟩
  · obtain ⟨hrun, k, hk⟩ := completedWindow_isSome hwin
    rw [power_of_execWrSample h hrun hk, bankGet_powers] at hj ⊢
    exact goertzel_eq_nan_of_isNaN hj

end Sys2Proof.Proofs
end

section
/-! SUPPORT. Why one rounding is correct (spec/00_scope.md R10): `round` answers a multiple of the spacing `2 ^ quantum` nearest
to the exact magnitude, and every finite datum is such a multiple or lies below the binade of the exact magnitude. -/

namespace Sys2Proof.Machine.F32

/-! ### Rounding to an integer -/

/-- The two ways `roundShift` can come out, with the remainder that decides. -/
theorem roundShift_cases (n q : Nat) :
    (roundShift n q = n / 2 ^ q ∧
      (2 * (n % 2 ^ q) < 2 ^ q ∨ 2 * (n % 2 ^ q) = 2 ^ q ∧ n / 2 ^ q % 2 = 0)) ∨
    (roundShift n q = n / 2 ^ q + 1 ∧
      (2 ^ q < 2 * (n % 2 ^ q) ∨ 2 * (n % 2 ^ q) = 2 ^ q ∧ n / 2 ^ q % 2 = 1)) := by
  simp only [roundShift]
  split <;> omega

/-- No multiple of `2 ^ q` is nearer to `n` than `roundShift n q` times it, and only an even one is as near as another. -/
theorem roundShift_nearest_multiple (n q : Nat) (k : ℤ) :
    |(roundShift n q : ℤ) * 2 ^ q - n| ≤ |k * 2 ^ q - n| ∧
    (|(roundShift n q : ℤ) * 2 ^ q - n| = |k * 2 ^ q - n| → k = roundShift n q ∨ roundShift n q % 2 = 0) := by
  have hcases := roundShift_cases n q
  have hdiv := Nat.div_add_mod n (2 ^ q)
  have hlt : n % 2 ^ q < 2 ^ q := Nat.mod_lt _ (by positivity)
  generalize n / 2 ^ q = m at *
  generalize n % 2 ^ q = r at *
  obtain ⟨j, rfl⟩ : ∃ j : ℤ, k = m + j := ⟨k - m, by ring⟩
  have hk : ((m : ℤ) + j) * 2 ^ q - n = j * (2 ^ q : ℕ) - r := by rw [← hdiv]; push_cast; ring
  have hfar : j < 0 ∧ j * (2 ^ q : ℕ) ≤ -(2 ^ q : ℕ) ∨ j = 0 ∨ j = 1 ∨ 1 < j ∧ 2 * (2 ^ q : ℕ) ≤ j * (2 ^ q : ℕ) := by
    obtain h | h | h | h : j < 0 ∨ j = 0 ∨ j = 1 ∨ 1 < j := by omega
    · exact .inl ⟨h, by nlinarith⟩
    · exact .inr (.inl h)
    · exact .inr (.inr (.inl h))
    · exact .inr (.inr (.inr ⟨h, by nlinarith⟩))
  rw [hk]
  simp only [Int.abs_eq_natAbs]
  obtain ⟨hs, hr⟩ | ⟨hs, hr⟩ := hcases
  · have hs' : (roundShift n q : ℤ) * 2 ^ q - n = -r := by rw [hs, ← hdiv]; push_cast; ring
    rw [hs', hs]
    obtain h | rfl | rfl | h := hfar <;> omega
  · have hs' : (roundShift n q : ℤ) * 2 ^ q - n = (2 ^ q : ℕ) - r := by rw [hs, ← hdiv]; push_cast; ring
    rw [hs', hs]
    obtain h | rfl | rfl | h := hfar <;> omega

/-- `roundShift_nearest_multiple` also against the integers below a multiple `c * 2 ^ q ≤ n`. -/
theorem roundShift_nearest {n q : Nat} {c y : ℤ} (hy : 2 ^ q ∣ y ∨ y < c * 2 ^ q ∧ c * 2 ^ q ≤ n) :
    |(roundShift n q : ℤ) * 2 ^ q - n| ≤ |y - n| ∧
    (|(roundShift n q : ℤ) * 2 ^ q - n| = |y - n| → y = roundShift n q * 2 ^ q ∨ roundShift n q % 2 = 0) := by
  obtain ⟨k, rfl⟩ | ⟨hlt, hle⟩ := hy
  · rw [mul_comm (2 ^ q) k]
    obtain ⟨hnear, htie⟩ := roundShift_nearest_multiple n q k
    exact ⟨hnear, fun h => (htie h).imp_left fun e => by rw [e]⟩
  · have hnear := (roundShift_nearest_multiple n q c).1
    have hfar : |c * 2 ^ q - (n : ℤ)| < |y - n| := by simp only [Int.abs_eq_natAbs]; omega
    exact ⟨by omega, fun h => absurd h (by omega)⟩

/-- An even number is reached from its midpoint with the odd number below it on. -/
theorem le_roundShift_iff {c : Nat} (hc : c % 2 = 0) (hpos : 0 < c) (n q : Nat) :
    c ≤ roundShift n q ↔ (2 * c - 1) * 2 ^ q ≤ 2 * n := by
  have hdiv := Nat.div_add_mod n (2 ^ q)
  have hlt : n % 2 ^ q < 2 ^ q := Nat.mod_lt _ (by positivity)
  have hcases := roundShift_cases n q
  have hodd : (2 * c - 1) * 2 ^ q + 2 ^ q = 2 * (2 ^ q * c) := by
    obtain ⟨b, rfl⟩ : ∃ b, c = b + 1 := ⟨c - 1, by omega⟩
    rw [show 2 * (b + 1) - 1 = 2 * b + 1 by omega]
    ring
  obtain h | h | h : c ≤ n / 2 ^ q ∨ c = n / 2 ^ q + 1 ∨ n / 2 ^ q + 2 ≤ c := by omega
  · have := Nat.mul_le_mul_left (2 ^ q) h
    omega
  · have : 2 ^ q * c = 2 ^ q * (n / 2 ^ q) + 2 ^ q := by rw [h, mul_add_one]
    omega
  · have := Nat.mul_le_mul_left (2 ^ q) h
    rw [mul_add] at this
    omega

theorem roundShift_le {c n q : Nat} (h : n < c * 2 ^ q) : roundShift n q ≤ c := by
  have hm := Nat.div_lt_of_lt_mul (by rwa [mul_comm] at h : n < 2 ^ q * c)
  obtain ⟨hs, -⟩ | ⟨hs, -⟩ := roundShift_cases n q <;> omega

theorem le_roundShift {c n q : Nat} (h : c * 2 ^ q ≤ n) : c ≤ roundShift n q := by
  have hm := (Nat.le_div_iff_mul_le (by positivity)).2 h
  obtain ⟨hs, -⟩ | ⟨hs, -⟩ := roundShift_cases n q <;> omega

/-! ### The spacing of the data around an exact magnitude -/

/-- The exponent of the spacing to which `roundMag n sh` rounds: 24 bits of `n` are kept, fewer in the subnormal range. -/
def quantum (n sh : Nat) : Nat := max (Nat.log2 n - 23) sh

theorem roundMag_eq (n sh : Nat) :
    roundMag n sh = (quantum n sh - sh) * 2 ^ 23 + roundShift n (quantum n sh) := rfl

theorem le_quantum (n sh : Nat) : sh ≤ quantum n sh := le_max_right _ _

theorem lt_two_pow_quantum (n sh : Nat) : n < 2 ^ 24 * 2 ^ quantum n sh := by
  rw [← pow_add]
  exact Nat.lt_log2_self.trans_le (Nat.pow_le_pow_right (by omega) (by unfold quantum; omega))

/-- Above the subnormal range the kept significand has all its 24 bits. -/
theorem quantum_cases (n sh : Nat) : quantum n sh = sh ∨ sh < quantum n sh ∧ 2 ^ 23 * 2 ^ quantum n sh ≤ n := by
  by_cases h : Nat.log2 n - 23 ≤ sh
  · exact .inl (max_eq_right h)
  · have hq : quantum n sh = Nat.log2 n - 23 := max_eq_left (by omega)
    have hn : n ≠ 0 := by rintro rfl; simp at h
    refine .inr ⟨by omega, ?_⟩
    calc 2 ^ 23 * 2 ^ quantum n sh = 2 ^ Nat.log2 n := by rw [← pow_add]; congr 1; omega
      _ ≤ n := Nat.log2_self_le hn

theorem significand_le (n sh : Nat) : roundShift n (quantum n sh) ≤ 2 ^ 24 := roundShift_le (lt_two_pow_quantum n sh)

theorem le_significand {n sh : Nat} (h : sh < quantum n sh) : 2 ^ 23 ≤ roundShift n (quantum n sh) := by
  obtain hq | ⟨-, hn⟩ := quantum_cases n sh
  · omega
  · exact le_roundShift hn

/-! ### Overflow -/

/-- A rounding reaches infinity from (2 - 2^-24) * 2^127 on. -/
theorem roundMag_overflow_iff (n sh : Nat) : 0x7F800000 ≤ roundMag n sh ↔ (2 ^ 25 - 1) * 2 ^ (252 + sh) ≤ n := by
  have hq := le_quantum n sh
  have hle := significand_le n sh
  rw [roundMag_eq]
  obtain h | h | h : quantum n sh ≤ 252 + sh ∨ quantum n sh = 253 + sh ∨ 254 + sh ≤ quantum n sh := by omega
  · have hn : n < 2 ^ 24 * 2 ^ (252 + sh) :=
      (lt_two_pow_quantum n sh).trans_le (Nat.mul_le_mul_left _ (Nat.pow_le_pow_right (by omega) h))
    omega
  · have hmid := le_roundShift_iff (c := 2 ^ 24) rfl (by omega) n (quantum n sh)
    have hpow : 2 ^ quantum n sh = 2 ^ (252 + sh) * 2 := by rw [h, ← pow_succ]; congr 1; omega
    rw [hpow] at hmid
    omega
  · have hge := le_significand (n := n) (sh := sh) (by omega)
    obtain hq' | ⟨-, hn⟩ := quantum_cases n sh
    · omega
    · have hn' : 2 ^ 23 * 2 ^ (254 + sh) ≤ n :=
        (Nat.mul_le_mul_left _ (Nat.pow_le_pow_right (by omega) h)).trans hn
      rw [show 254 + sh = 252 + sh + 2 by omega, pow_add] at hn'
      omega

/-! ### The datum a rounding answers -/

/-- A significand of at most 24 bits, or its carry `2 ^ 24`, added to an exponent field has the value it should. -/
theorem scaledMag_ofMag (neg : Bool) {e s : Nat} (hs : s ≤ 2 ^ 24) (hnormal : e = 0 ∨ 2 ^ 23 ≤ s)
    (hmag : e * 2 ^ 23 + s < 2 ^ 31) : scaledMag (ofMag neg (e * 2 ^ 23 + s)) = s * 2 ^ e := by
  unfold scaledMag
  rw [expo_ofMag neg hmag, frac_ofMag neg hmag]
  obtain h | h | h : s < 2 ^ 23 ∨ 2 ^ 23 ≤ s ∧ s < 2 ^ 24 ∨ s = 2 ^ 24 := by omega
  · obtain rfl : e = 0 := by omega
    rw [if_pos (by omega)]
    omega
  · rw [if_neg (by omega), show (e * 2 ^ 23 + s) / 2 ^ 23 - 1 = e by omega,
      show 2 ^ 23 + (e * 2 ^ 23 + s) % 2 ^ 23 = s by omega]
  · subst h
    rw [if_neg (by omega), show (e * 2 ^ 23 + 2 ^ 24) / 2 ^ 23 - 1 = e + 1 by omega,
      show 2 ^ 23 + (e * 2 ^ 23 + 2 ^ 24) % 2 ^ 23 = 2 ^ 23 by omega, pow_succ]
    ring

/-- The pattern of a rounding that does not overflow: finite, with the rounded significand at its spacing. -/
theorem round_of_lt {n sh : Nat} (h : roundMag n sh < 0x7F800000) (neg : Bool) :
    isFinite (round neg n sh) = true ∧
    scaledMag (round neg n sh) = roundShift n (quantum n sh) * 2 ^ (quantum n sh - sh) ∧
    frac (round neg n sh) % 2 = roundShift n (quantum n sh) % 2 := by
  have hround : round neg n sh = ofMag neg (roundMag n sh) := by rw [round, min_eq_left h.le]
  rw [hround]
  refine ⟨?_, ?_, ?_⟩
  · rw [isFinite, expo_ofMag neg (by omega), bne_iff_ne]
    omega
  · rw [roundMag_eq] at h ⊢
    refine scaledMag_ofMag neg (significand_le n sh) ?_ (by omega)
    exact (quantum_cases n sh).imp (by omega) fun hq => le_significand hq.1
  · rw [frac_ofMag neg (by omega), roundMag_eq]
    omega

/-! ### Every datum against the spacing -/

theorem two_pow_dvd_or_lt (w : Word) (e : Nat) : 2 ^ e ∣ scaledMag w ∨ scaledMag w < 2 ^ 23 * 2 ^ e := by
  obtain h | h : e ≤ expo w - 1 ∨ expo w ≤ e := by omega
  · exact .inl ((pow_dvd_pow 2 h).trans (two_pow_dvd_scaledMag w))
  · exact .inr ((scaledMag_lt w).trans_le (Nat.mul_le_mul_left _ (Nat.pow_le_pow_right (by omega) h)))

/-- Every datum, in the units of the exact magnitude `n`, is a multiple of the spacing or lies below the binade of `n`. -/
theorem quantum_dvd_or_lt (w : Word) (n sh : Nat) :
    2 ^ quantum n sh ∣ scaledMag w * 2 ^ sh ∨
    scaledMag w * 2 ^ sh < 2 ^ 23 * 2 ^ quantum n sh ∧ 2 ^ 23 * 2 ^ quantum n sh ≤ n := by
  obtain hq | ⟨hq, hn⟩ := quantum_cases n sh
  · exact .inl (by rw [hq]; exact Nat.dvd_mul_left _ _)
  · have hpow : 2 ^ quantum n sh = 2 ^ (quantum n sh - sh) * 2 ^ sh := by rw [← pow_add]; congr 1; omega
    rw [hpow] at hn ⊢
    refine (two_pow_dvd_or_lt w (quantum n sh - sh)).imp (Nat.mul_dvd_mul_right · _) fun h => ⟨?_, hn⟩
    rw [← mul_assoc]
    exact Nat.mul_lt_mul_of_pos_right h (by positivity)

/-- `v`, or `-v` for a negative sign. -/
def signed (neg : Bool) (v : ℤ) : ℤ := if neg then -v else v

theorem scaled_eq_signed (w : Word) : scaled w = signed (sign w) (scaledMag w) := rfl

theorem abs_signed (neg : Bool) (v : ℤ) : |signed neg v| = |v| := by cases neg <;> simp [signed]

@[simp] theorem signed_signed (neg : Bool) (v : ℤ) : signed neg (signed neg v) = v := by cases neg <;> simp [signed]

theorem abs_sub_signed (neg : Bool) (u v : ℤ) : |u - signed neg v| = |signed neg u - v| := by
  cases neg
  · rfl
  · rw [← abs_neg]
    simp only [signed, if_true]
    congr 1
    ring

theorem abs_scaled (w : Word) : |scaled w| = scaledMag w := by
  rw [scaled_eq_signed, abs_signed, Nat.abs_cast]

/-- `quantum_dvd_or_lt` for a signed datum, counted in the direction of the exact result's sign. -/
theorem quantum_dvd_signed_or_lt (w : Word) (neg : Bool) (n sh : Nat) :
    2 ^ quantum n sh ∣ signed neg (scaled w * 2 ^ sh) ∨
    signed neg (scaled w * 2 ^ sh) < 2 ^ 23 * 2 ^ quantum n sh ∧ (2 ^ 23 * 2 ^ quantum n sh : ℤ) ≤ n := by
  have habs : |signed neg (scaled w * 2 ^ sh)| = (scaledMag w * 2 ^ sh : ℕ) := by
    rw [abs_signed, abs_mul, abs_scaled, abs_pow]
    simp
  refine (quantum_dvd_or_lt w n sh).imp (fun h => ?_) fun ⟨hlt, hn⟩ => ⟨?_, by exact_mod_cast hn⟩
  · rw [← dvd_abs, habs]
    exact_mod_cast h
  · exact (le_abs_self _).trans_lt (habs ▸ by exact_mod_cast hlt)

/-- No datum is nearer to the exact magnitude `n` with sign `neg` than its rounding, and a rounding as near as another datum has
an even significand; everything in units of 2^-(149 + sh). -/
theorem round_nearest {n sh : Nat} (h : roundMag n sh < 0x7F800000) (neg : Bool) (w : Word) :
    |scaled (round neg n sh) * 2 ^ sh - signed neg n| ≤ |scaled w * 2 ^ sh - signed neg n| ∧
    (|scaled (round neg n sh) * 2 ^ sh - signed neg n| = |scaled w * 2 ^ sh - signed neg n| →
      scaled (round neg n sh) ≠ scaled w → frac (round neg n sh) % 2 = 0) := by
  obtain ⟨-, hmag, hfrac⟩ := round_of_lt h neg
  have hr : signed neg (scaled (round neg n sh) * 2 ^ sh) = roundShift n (quantum n sh) * 2 ^ quantum n sh := by
    have hsplit : (2 : ℤ) ^ quantum n sh = 2 ^ (quantum n sh - sh) * 2 ^ sh := by
      rw [← pow_add, Nat.sub_add_cancel (le_quantum n sh)]
    rw [scaled_eq_signed, hmag, hsplit, round, sign_ofMag]
    push_cast
    cases neg <;> simp [signed, mul_assoc]
  obtain ⟨hnear, htie⟩ := roundShift_nearest (quantum_dvd_signed_or_lt w neg n sh)
  rw [abs_sub_signed, abs_sub_signed, hr, hfrac]
  refine ⟨hnear, fun heq hne => (htie heq).resolve_left fun hy => hne ?_⟩
  have hsame := congrArg (signed neg) (hr.trans hy.symm)
  rw [signed_signed, signed_signed] at hsame
  exact mul_right_cancel₀ (by positivity) hsame

/-! ### Correct rounding of a rational -/

theorem unit_mul_two_pow (sh : Nat) : 2 ^ sh * unit sh = unit 0 := by
  rw [unit, unit_zero, ← zpow_natCast, ← zpow_add₀ two_ne_zero]
  congr 1
  omega

theorem unit_mul_unit : unit 0 * unit 0 = unit 149 := by
  rw [unit_zero, unit, ← zpow_add₀ two_ne_zero]
  norm_num

theorem overflowAt_eq (sh : Nat) : overflowAt = ((2 ^ 25 - 1) * 2 ^ (252 + sh) : ℕ) * unit sh := by
  have h : overflowAt = (2 ^ 25 - 1) * 2 ^ 252 * unit 0 := by
    rw [overflowAt, unit_zero]
    norm_num
  rw [h, ← unit_mul_two_pow sh, pow_add]
  push_cast
  ring

theorem abs_signed_mul_unit (neg : Bool) (n sh : Nat) : |signed neg n * unit sh| = n * unit sh := by
  rw [abs_mul, abs_of_pos (unit_pos sh), ← Int.cast_abs, abs_signed, Nat.abs_cast, Int.cast_natCast]

/-- The exact result overflows exactly when the rounded magnitude reaches the pattern of infinity. -/
theorem overflowAt_le_iff (neg : Bool) (n sh : Nat) :
    overflowAt ≤ |signed neg n * unit sh| ↔ 0x7F800000 ≤ roundMag n sh := by
  rw [abs_signed_mul_unit, overflowAt_eq sh, mul_le_mul_iff_left₀ (unit_pos sh), Nat.cast_le, roundMag_overflow_iff]

theorem signed_mul_unit_neg_iff (neg : Bool) {n : Nat} (hn : 0 < n) (sh : Nat) :
    signed neg n * unit sh < 0 ↔ neg = true := by
  have hpos : 0 < n * unit sh := mul_pos (by exact_mod_cast hn) (unit_pos sh)
  cases neg
  · simpa [signed] using hpos.le
  · simpa [signed] using hpos

/-- The distance of a datum from the exact result, in units of the exact result. -/
theorem abs_value_sub (w : Word) (x : ℤ) (sh : Nat) :
    |value w - x * unit sh| = (|scaled w * 2 ^ sh - x| : ℤ) * unit sh := by
  rw [value_eq_scaled, ← unit_mul_two_pow sh, ← mul_assoc, ← sub_mul, abs_mul, abs_of_pos (unit_pos sh)]
  push_cast
  rfl

/-- R10: `round` is correct rounding. -/
theorem round_roundsTo (neg : Bool) (n sh : Nat) : RoundsTo (signed neg n * unit sh) (round neg n sh) := by
  unfold RoundsTo
  split <;> rename_i h <;> rw [overflowAt_le_iff] at h
  · have hn : 0 < n :=
      (Nat.mul_pos (by norm_num) (by positivity)).trans_le ((roundMag_overflow_iff n sh).1 h)
    have hsign : decide (signed neg n * unit sh < 0) = neg := by simp [signed_mul_unit_neg_iff neg hn]
    rw [hsign, round, min_eq_right h, inf]
  · rw [not_le] at h
    refine ⟨(round_of_lt h neg).1, fun w _ => ?_⟩
    obtain ⟨hnear, htie⟩ := round_nearest h neg w
    rw [abs_value_sub, abs_value_sub, mul_le_mul_iff_left₀ (unit_pos sh), mul_left_inj' (unit_pos sh).ne',
      Int.cast_le, Int.cast_inj]
    exact ⟨hnear, fun heq hne => htie heq fun hsc => hne (by rw [value_eq_scaled, value_eq_scaled, hsc])⟩

/-- R10: `roundInt` is correct rounding, whatever the sign it gives an exact zero. -/
theorem roundInt_roundsTo (zeroNeg : Bool) (n : ℤ) : RoundsTo (n * unit 0) (roundInt zeroNeg n 0) := by
  have hsigned : signed (decide (n < 0)) n.natAbs = n := by
    by_cases h : n < 0
    · rw [decide_eq_true h, signed, if_pos rfl]
      omega
    · rw [decide_eq_false h, signed, if_neg Bool.false_ne_true]
      omega
  unfold roundInt
  split
  · next h =>
    have hzero : round zeroNeg 0 0 = ofMag zeroNeg 0 := by cases zeroNeg <;> decide
    have := round_roundsTo zeroNeg 0 0
    rw [hzero] at this
    simpa [signed, h] using this
  · have := round_roundsTo (decide (n < 0)) n.natAbs 0
    rwa [hsigned] at this

/-! ### The operations (R10) -/

theorem add_of_isFinite {a b : Word} (ha : isFinite a = true) (hb : isFinite b = true) :
    add a b = roundInt (sign a && sign b) (scaled a + scaled b) 0 := by
  obtain ⟨hna, hia⟩ := (isFinite_iff a).1 ha
  obtain ⟨hnb, hib⟩ := (isFinite_iff b).1 hb
  simp [add, hna, hia, hnb, hib]

theorem mul_of_isFinite {a b : Word} (ha : isFinite a = true) (hb : isFinite b = true) :
    mul a b = round (sign a ^^ sign b) (scaledMag a * scaledMag b) 149 := by
  obtain ⟨hna, hia⟩ := (isFinite_iff a).1 ha
  obtain ⟨hnb, hib⟩ := (isFinite_iff b).1 hb
  simp [mul, hna, hia, hnb, hib]

theorem add_roundsTo {a b : Word} (ha : isFinite a = true) (hb : isFinite b = true) :
    RoundsTo (value a + value b) (add a b) := by
  rw [add_of_isFinite ha hb, value_eq_scaled, value_eq_scaled, ← add_mul, ← Int.cast_add]
  exact roundInt_roundsTo _ _

theorem sub_roundsTo {a b : Word} (ha : isFinite a = true) (hb : isFinite b = true) :
    RoundsTo (value a - value b) (sub a b) := by
  rw [sub_eq_add_neg, ← value_neg]
  exact add_roundsTo ha (by rwa [isFinite_neg])

theorem scaled_mul_scaled (a b : Word) :
    scaled a * scaled b = signed (sign a ^^ sign b) (scaledMag a * scaledMag b : ℕ) := by
  rw [scaled_eq_signed, scaled_eq_signed]
  cases sign a <;> cases sign b <;> simp [signed]

theorem mul_roundsTo {a b : Word} (ha : isFinite a = true) (hb : isFinite b = true) :
    RoundsTo (value a * value b) (mul a b) := by
  rw [mul_of_isFinite ha hb, value_eq_scaled, value_eq_scaled, mul_mul_mul_comm, unit_mul_unit, ← Int.cast_mul,
    scaled_mul_scaled]
  exact round_roundsTo _ _ _

/-- An exact zero sum has the sign both operands share, or is +0 (log 9). -/
theorem add_of_value_add_eq_zero {a b : Word} (ha : isFinite a = true) (hb : isFinite b = true)
    (h : value a + value b = 0) : add a b = ofMag (sign a && sign b) 0 := by
  have hsum : scaled a + scaled b = 0 := by
    rw [value_eq_scaled, value_eq_scaled, ← add_mul, mul_eq_zero_iff_right (unit_pos 0).ne'] at h
    exact_mod_cast h
  rw [add_of_isFinite ha hb, hsum, roundInt, if_pos rfl]

theorem sub_of_value_sub_eq_zero {a b : Word} (ha : isFinite a = true) (hb : isFinite b = true)
    (h : value a - value b = 0) : sub a b = ofMag (sign a && !sign b) 0 := by
  rw [← sign_neg]
  exact add_of_value_add_eq_zero ha (by rwa [isFinite_neg]) (by rwa [value_neg, ← sub_eq_add_neg])

theorem sign_mul_of_isFinite {a b : Word} (ha : isFinite a = true) (hb : isFinite b = true) :
    sign (mul a b) = (sign a ^^ sign b) := by
  rw [mul_of_isFinite ha hb, round, sign_ofMag]

/-! ### Infinite operands (log 9) -/

@[simp] theorem neg_inf (s : Bool) : neg (inf s) = inf (!s) := by cases s <;> decide

theorem add_inf_left {b : Word} (hb : isFinite b = true) (s : Bool) : add (inf s) b = inf s := by
  obtain ⟨hnb, hib⟩ := (isFinite_iff b).1 hb
  simp [add, hnb, hib]

theorem add_inf_right {b : Word} (hb : isFinite b = true) (s : Bool) : add b (inf s) = inf s := by
  obtain ⟨hnb, hib⟩ := (isFinite_iff b).1 hb
  simp [add, hnb, hib]

theorem sub_inf_left {b : Word} (hb : isFinite b = true) (s : Bool) : sub (inf s) b = inf s :=
  add_inf_left (by rwa [isFinite_neg]) s

theorem sub_inf_right {b : Word} (hb : isFinite b = true) (s : Bool) : sub b (inf s) = inf (!s) := by
  rw [sub, neg_inf, add_inf_right hb]

theorem mul_inf_left {b : Word} (hb : isFinite b = true) (s : Bool) :
    mul (inf s) b = if value b = 0 then nan else inf (s ^^ sign b) := by
  simp [mul, not_isNaN_of_isFinite hb, value_eq_zero_iff]

theorem mul_inf_right {b : Word} (hb : isFinite b = true) (s : Bool) :
    mul b (inf s) = if value b = 0 then nan else inf (s ^^ sign b) := by
  obtain ⟨hnb, hib⟩ := (isFinite_iff b).1 hb
  simp [mul, hnb, hib, value_eq_zero_iff, Bool.xor_comm]

theorem add_inf_inf (s t : Bool) : add (inf s) (inf t) = if s = t then inf s else nan := by
  by_cases h : s = t <;> simp [add, h]

theorem sub_inf_inf (s t : Bool) : sub (inf s) (inf t) = if s = t then nan else inf s := by
  rw [sub, neg_inf, add_inf_inf]
  cases s <;> cases t <;> rfl

theorem mul_inf_inf (s t : Bool) : mul (inf s) (inf t) = inf (s ^^ t) := by
  have hmag : scaledMag (inf t) ≠ 0 := by cases t <;> decide
  simp [mul, hmag]

end Sys2Proof.Machine.F32
end

section
/-! PROOF. The statement about correct rounding (spec/00_scope.md R10). -/

namespace Sys2Proof.Proofs

open Sys2Proof.Machine

theorem inf_eq_ite (s : Bool) : (if s then 0xFF800000#32 else 0x7F800000#32) = F32.inf s := by cases s <;> rfl

theorem ofMag_zero_eq_ite (s : Bool) : (if s then 0x80000000#32 else 0x00000000#32) = F32.ofMag s 0 := by
  cases s <;> rfl

/-- Settles O35: each operation rounds its exact integer result once, and `round` is correct rounding. -/
theorem arithmeticIsCorrectlyRounded : Obligations.ArithmeticIsCorrectlyRounded := by
  unfold Obligations.ArithmeticIsCorrectlyRounded
  simp only [inf_eq_ite, ofMag_zero_eq_ite]
  refine ⟨fun a b ha hb => ?_, fun s b hb => ?_, fun s t => ?_⟩
  · exact ⟨F32.add_roundsTo ha hb, F32.sub_roundsTo ha hb, F32.mul_roundsTo ha hb,
      F32.add_of_value_add_eq_zero ha hb, F32.sub_of_value_sub_eq_zero ha hb, F32.sign_mul_of_isFinite ha hb⟩
  · exact ⟨F32.add_inf_left hb s, F32.add_inf_right hb s, F32.sub_inf_left hb s, F32.sub_inf_right hb s,
      F32.mul_inf_left hb s, F32.mul_inf_right hb s⟩
  · exact ⟨F32.add_inf_inf s t, F32.sub_inf_inf s t, F32.mul_inf_inf s t⟩

end Sys2Proof.Proofs
end

section
/-! SUPPORT. What a run's configuration guarantees (spec/41_commands.md R104), the number of completed windows
(spec/43_result_readout.md R149), and the form of a result word (spec/30_encoding.md R66). -/

namespace Sys2Proof.Machine

/-! ### The configuration check -/

theorem Regs.modeBits_ne_three {r : Regs} (h : r.mode ≠ .invalid) : r.modeBits ≠ 3#2 := by
  intro hb
  exact h (by simp [Regs.mode, hb])

/-- What `cfg_ok` guarantees of either kind of run. -/
theorem cfgOk_bounds {par : Params} {scan : Bool} {r : Regs} (hp : par.Legal) (h : cfgOk par scan r = true) :
    r.mode ≠ .invalid ∧ 1 ≤ r.winN := by
  obtain ⟨-, -, hmin, -⟩ := hp
  simp only [cfgOk, Bool.and_eq_true, decide_eq_true_eq] at h
  obtain ⟨⟨⟨hmode, hlo⟩, -⟩, -⟩ := h
  exact ⟨hmode, by omega⟩

/-- The step of a SCAN is at least 1 and at most the window. -/
theorem cfgOk_step {par : Params} {r : Regs} (hp : par.Legal) (h : cfgOk par true r = true) :
    1 ≤ r.stepS ∧ r.stepS ≤ r.winN := by
  obtain ⟨-, hn⟩ := cfgOk_bounds hp h
  simp only [cfgOk, Bool.not_true, Bool.false_or, Bool.and_eq_true, decide_eq_true_eq] at h
  obtain ⟨-, hq, hle⟩ := h
  rw [quarter] at hq
  exact ⟨by omega, hle⟩

/-! ### The number of completed windows -/

theorem windowsCompleted_succ_of_none {n s i : Nat} (h : completedWindow .scan n s i = none) :
    windowsCompleted n s (i + 1) = windowsCompleted n s i := by
  have hn : ¬ (n ≤ i + 1 ∧ (i + 1 - n) % s = 0) := fun hc => by simp [completedWindow, hc] at h
  unfold windowsCompleted
  by_cases hlt : i + 1 < n
  · rw [if_pos hlt, if_pos (by omega)]
  · have hne : n ≠ i + 1 := fun he => hn ⟨he.le, by simp [he]⟩
    rw [show i + 1 - n = i - n + 1 by omega] at hn ⊢
    have hdvd : ¬ s ∣ i - n + 1 := fun hd => hn ⟨by omega, Nat.mod_eq_zero_of_dvd hd⟩
    rw [if_neg hlt, if_neg (by omega), Nat.succ_div_of_not_dvd hdvd]

/-- The window a sample completes is the next one counted. -/
theorem windowsCompleted_of_some {n s i k : Nat} (h : completedWindow .scan n s i = some k) :
    windowsCompleted n s i = k ∧ windowsCompleted n s (i + 1) = k + 1 := by
  obtain ⟨hle, hmod, rfl⟩ := completedWindow_scan h
  unfold windowsCompleted
  refine ⟨?_, if_neg (by omega)⟩
  by_cases hlt : i < n
  · rw [if_pos hlt, show i + 1 - n = 0 by omega, Nat.zero_div]
  · rw [show i + 1 - n = i - n + 1 by omega] at hmod ⊢
    rw [if_neg hlt, Nat.succ_div_of_dvd (Nat.dvd_of_mod_eq_zero hmod)]

/-! ### Result words -/

/-- The fields that every result word has, of either class. -/
theorem resultWord_eq (r : Regs) (k : Nat) (c : WindowClass) : ∃ (h l : BitVec 2) (v : BitVec 4) (d : BitVec 1),
    resultWord r k c = BitVec.ofNat 16 k ++ 0#4 ++ h ++ l ++ v ++ r.modeBits ++ d ++ 1#1 := by
  cases c with
  | none => exact ⟨_, _, _, _, rfl⟩
  | detect v l h => exact ⟨_, _, _, _, rfl⟩

theorem resultWordOk_resultWord {r : Regs} (hmode : r.mode ≠ .invalid) (k : Nat) (c : WindowClass) :
    resultWordOk (resultWord r k c) := by
  obtain ⟨h, l, v, d, e⟩ := resultWord_eq r k c
  have hkind : (resultWord r k c).extractLsb' 2 2 = r.modeBits := by
    rw [e]; simp only [BitVec.extractLsb'_append_eq_ite]; simp
  refine ⟨?_, ?_, hkind ▸ Regs.modeBits_ne_three hmode⟩ <;> rw [e]
  · simp only [BitVec.getLsbD_append]; simp
  · simp only [BitVec.extractLsb'_append_eq_ite]; simp

end Sys2Proof.Machine
end

section
/-! SUPPORT. Every operation of the block keeps the invariant (Safety.lean), and so do every instruction and every step. -/

namespace Sys2Proof.Machine

/-- The block's part of the invariant. -/
structure Block.Inv (b : Block) (par : Params) : Prop where
  fifo : b.FifoInv par
  config : b.ConfigInv par
  schedule : b.ScheduleInv
  debounce : b.DebounceInv

theorem State.inv_iff (s : State) : s.Inv ↔ s.par.Legal ∧ s.blk.Inv s.par :=
  ⟨fun h => ⟨h.params, h.fifo, h.config, h.schedule, h.debounce⟩,
    fun ⟨hp, h⟩ => ⟨hp, h.fifo, h.config, h.schedule, h.debounce⟩⟩

variable {b b' : Block} {par : Params}

theorem Block.stage_of_not_running (h : b.running = false) : b.stage ≠ .scan ∧ b.stage ≠ .oneshot := by
  constructor <;> intro hst <;> simp [running, hst, Stage.running] at h

/-! ### Operations outside the sample path -/

/-- Fewer result words of no fewer windows. -/
theorem Block.fifoInv_of_sublist (h : b.FifoInv par) (hfifo : b'.fifo.Sublist b.fifo)
    (hcount : b.run.wcount ≤ b'.run.wcount) : b'.FifoInv par := by
  obtain ⟨hdepth, hlen, hwords⟩ := h
  have := hfifo.length_le
  exact ⟨by omega, by omega, fun w hw => hwords w (hfifo.subset hw)⟩

/-- What changes neither STATE, the configuration nor the run state, and adds no result word, keeps the invariant. -/
theorem Block.Inv.of_sublist (h : b.Inv par) (hstage : b'.stage = b.stage) (hcfg : b'.cfg = b.cfg)
    (hrun : b'.run = b.run) (hfifo : b'.fifo.Sublist b.fifo) : b'.Inv par where
  fifo := fifoInv_of_sublist h.fifo hfifo (by rw [hrun])
  config := by rw [ConfigInv, hstage, hcfg]; exact h.config
  schedule := by rw [ScheduleInv, running, hstage, hcfg, hrun]; exact h.schedule
  debounce := by rw [DebounceInv, hstage, hcfg, hrun]; exact h.debounce

theorem Block.Inv.raise (h : b.Inv par) (e : ErrBit) : (b.raise e).Inv par :=
  h.of_sublist (by simp) (by simp) (by simp) (by simp)

/-- Outside a run the invariant says nothing of the configuration, and keeps no samples. -/
theorem Block.inv_of_not_running (hr : b.running = false) (hfifo : b.FifoInv par) (hsamples : b.run.samples = [])
    (hacc : b.run.dbValid = true → b.run.acc = true) : b.Inv par := by
  obtain ⟨hscan, honeshot⟩ := stage_of_not_running hr
  exact ⟨hfifo, ⟨fun e => absurd e hscan, fun e => absurd e honeshot⟩,
    ⟨fun e => absurd e hscan, fun e => absurd e honeshot, fun _ => hsamples⟩,
    ⟨hacc, fun e => absurd e hscan, fun e => absurd e honeshot⟩⟩

theorem Block.inv_reset (par : Params) : Block.reset.Inv par :=
  inv_of_not_running rfl ⟨Nat.zero_le _, Nat.zero_le _, by simp [reset]⟩ rfl (by simp [reset, Run.init])

/-- Ending a run, by END_STREAM, ABORT or a ONESHOT completion (R109, R110, R137). -/
theorem Block.Inv.of_stopped (h : b.Inv par) (hr : b'.running = false) (hfifo : b'.fifo = b.fifo)
    (hrun : b'.run = { b.run with samples := [] }) : b'.Inv par := by
  obtain ⟨hacc, -⟩ := h.debounce
  exact inv_of_not_running hr (fifoInv_of_sublist h.fifo (by simp [hfifo]) (by simp [hrun])) (by simp [hrun])
    (by rw [hrun]; exact hacc)

theorem Block.Inv.lockedWrite (h : b.Inv par) (f : Regs → Regs) : (b.lockedWrite f).Inv par := by
  obtain ⟨-, e⟩ | ⟨hr, e⟩ := b.lockedWrite_cases f <;> rw [e]
  · exact h.raise .werr
  · obtain ⟨-, -, hidle⟩ := h.schedule
    obtain ⟨hacc, -⟩ := h.debounce
    exact inv_of_not_running hr h.fifo (hidle hr) hacc

/-! ### A run begins (R105) -/

theorem Block.inv_runInit_scan (hp : par.Legal) (hok : cfgOk par true b.cfg = true) : (b.runInit .scan).Inv par := by
  obtain ⟨-, hn⟩ := cfgOk_bounds hp hok
  refine ⟨⟨Nat.zero_le _, Nat.zero_le _, by simp⟩, ⟨fun _ => hok, by simp⟩, ⟨fun _ => ⟨?_, ?_, hn⟩, by simp, ?_⟩, ?_⟩
  · exact (if_pos hn).symm
  · simp [Run.init]
  · intro _; rfl
  · simp [DebounceInv, Run.init]

theorem Block.inv_runInit_oneshot (hp : par.Legal) (hok : cfgOk par false b.cfg = true) :
    (b.runInit .oneshot).Inv par := by
  obtain ⟨-, hn⟩ := cfgOk_bounds hp hok
  refine ⟨⟨Nat.zero_le _, Nat.zero_le _, by simp⟩, ⟨by simp, fun _ => hok⟩, ⟨by simp, fun _ => ⟨rfl, rfl, hn⟩, ?_⟩, ?_⟩
  · intro _; rfl
  · simp [DebounceInv, Run.init]

theorem Block.Inv.commandEffect (h : b.Inv par) (hp : par.Legal) (c : Command) : (commandEffect par c b).Inv par := by
  obtain ⟨-, e⟩ | ⟨-, -, e⟩ | ⟨-, -, e⟩ | ⟨-, -, e⟩ | ⟨-, -, e⟩ | ⟨-, e⟩ | ⟨-, e⟩ | ⟨-, e⟩ :=
    commandEffect_cases par c b <;> rw [e]
  · exact h.raise .cmderr
  · exact h
  · split
    · exact inv_runInit_scan hp ‹_›
    · exact h.raise .cfgerr
  · split
    · exact inv_runInit_oneshot hp ‹_›
    · exact h.raise .cfgerr
  · exact h.of_stopped rfl rfl rfl
  · exact h.of_stopped rfl rfl rfl
  · exact h.of_sublist rfl rfl rfl (List.nil_sublist _)
  · exact inv_reset par

/-! ### A sample inside a window -/

section
variable (u : Run) (x : Word)

@[simp] theorem Run.absorb_index : (u.absorb x).index = u.index + 1 := rfl
@[simp] theorem Run.absorb_samples : (u.absorb x).samples = u.samples ++ [x] := rfl
@[simp] theorem Run.absorb_wcount : (u.absorb x).wcount = u.wcount := rfl
@[simp] theorem Run.absorb_dbValid : (u.absorb x).dbValid = u.dbValid := rfl
@[simp] theorem Run.absorb_dbPos : (u.absorb x).dbPos = u.dbPos := rfl
@[simp] theorem Run.absorb_acc : (u.absorb x).acc = u.acc := rfl

end

/-- A sample that completes no window leaves it open: were N samples kept, the next window would begin N samples back. -/
theorem Block.Inv.scheduleInv_absorb (h : b.Inv par) (hr : b.running = true)
    (hnone : completedWindow b.stage b.cfg.winN b.cfg.stepS b.run.index = none) (x : Word) :
    (b.setRun (b.run.absorb x)).ScheduleInv := by
  obtain ⟨hscan, honeshot, -⟩ := h.schedule
  refine ⟨fun hst => ?_, fun hst => ?_, fun hr' => absurd (hr.symm.trans hr') (by simp)⟩ <;>
    rw [setRun_stage] at hst <;> rw [hst] at hnone <;>
    simp only [setRun_run, setRun_cfg, Run.absorb_index, Run.absorb_samples, Run.absorb_wcount, List.length_append,
      List.length_singleton]
  · obtain ⟨hcount, hkept, hlt⟩ := hscan hst
    refine ⟨hcount.trans (windowsCompleted_succ_of_none hnone).symm, by omega, ?_⟩
    by_contra hfull
    have hpos : b.run.index + 1 - b.cfg.winN = b.run.wcount * b.cfg.stepS := by omega
    have hwin : b.cfg.winN ≤ b.run.index + 1 ∧ (b.run.index + 1 - b.cfg.winN) % b.cfg.stepS = 0 :=
      ⟨by omega, by rw [hpos, Nat.mul_mod_left]⟩
    simp [completedWindow, hwin] at hnone
  · obtain ⟨hcount, hkept, hlt⟩ := honeshot hst
    have hne : b.run.index + 1 ≠ b.cfg.winN := fun hlast => by simp [completedWindow, hlast] at hnone
    exact ⟨hcount, by omega, by omega⟩

theorem Block.Inv.absorb (h : b.Inv par) (hr : b.running = true)
    (hnone : completedWindow b.stage b.cfg.winN b.cfg.stepS b.run.index = none) (x : Word) :
    (b.setRun (b.run.absorb x)).Inv par :=
  ⟨h.fifo, h.config, h.scheduleInv_absorb hr hnone x, h.debounce⟩

/-! ### A sample that completes a window -/

/-- A push of a word for a window just counted. -/
theorem Block.fifoInv_push (h : b.FifoInv par) (hfifo : b'.fifo = b.fifo)
    (hcount : b'.run.wcount = b.run.wcount + 1) {w : Word} (hw : resultWordOk w) : (b'.push par w).FifoInv par := by
  obtain ⟨hdepth, hlen, hwords⟩ := h
  refine ⟨b'.push_length par w (hfifo ▸ hdepth), ?_⟩
  rw [push_run, hcount]
  obtain ⟨-, e⟩ | ⟨-, e⟩ := b'.push_cases par w
  · simp only [e, raise_fifo, hfifo]
    exact ⟨by omega, hwords⟩
  · simp only [e, event_fifo, setFifo_fifo, hfifo, List.length_append, List.length_singleton, List.mem_append,
      List.mem_singleton]
    exact ⟨by omega, fun v hv => hv.elim (hwords v) (· ▸ hw)⟩

/-- The window that a sample completes in a SCAN is the next one to be counted, and the sample fills it. -/
theorem Block.Inv.scan_window (h : b.Inv par) (hst : b.stage = .scan) {k : Nat}
    (hk : completedWindow .scan b.cfg.winN b.cfg.stepS b.run.index = some k) :
    b.run.wcount = k ∧ b.run.samples.length + 1 = b.cfg.winN := by
  obtain ⟨hscan, -⟩ := h.schedule
  obtain ⟨hcount, hkept, -⟩ := hscan hst
  obtain ⟨hle, hmod, hdiv⟩ := completedWindow_scan hk
  have hwin : b.run.wcount = k := hcount.trans (windowsCompleted_of_some hk).1
  have hpos : k * b.cfg.stepS = b.run.index + 1 - b.cfg.winN := by
    rw [hdiv, Nat.div_mul_cancel (Nat.dvd_of_mod_eq_zero hmod)]
  rw [hwin, hpos] at hkept
  exact ⟨hwin, by omega⟩

theorem Block.Inv.completeOneshot (h : b.Inv par) (hp : par.Legal) (hst : b.stage = .oneshot) (x : Word) (p : Bank)
    (c : WindowClass) : (((b.setRun (b.run.absorb x)).evaluated p c).completeOneshot par c).Inv par := by
  obtain ⟨-, -, hdeb⟩ := h.debounce
  obtain ⟨-, hvalid⟩ := hdeb hst
  obtain ⟨-, hok⟩ := h.config
  obtain ⟨hmode, -⟩ := cfgOk_bounds hp (hok hst)
  refine inv_of_not_running rfl (fifoInv_push h.fifo ?_ ?_ (resultWordOk_resultWord ?_ 0 c)) rfl ?_
  · simp
  · simp
  · simpa using hmode
  · cases c <;> simp [Block.completeOneshot, hvalid]

/-- The block after the sample `x` has completed window `k` of a SCAN with powers `p` and class `c`, as `execWrSample_next` gives
it. -/
def Block.scanned (b : Block) (par : Params) (k : Nat) (x : Word) (p : Bank) (c : WindowClass) : Block :=
  ((b.setRun (b.run.absorb x)).evaluated p c).completeScan par k (b.windowWith x) c

section
variable (k : Nat) (x : Word) (p : Bank) (c : WindowClass)

@[simp] theorem Block.scanned_stage : (b.scanned par k x p c).stage = b.stage := by simp [scanned]
@[simp] theorem Block.scanned_cfg : (b.scanned par k x p c).cfg = b.cfg := by simp [scanned]
@[simp] theorem Block.scanned_index : (b.scanned par k x p c).run.index = b.run.index + 1 := by simp [scanned]
@[simp] theorem Block.scanned_wcount : (b.scanned par k x p c).run.wcount = b.run.wcount + 1 := by simp [scanned]
@[simp] theorem Block.scanned_samples : (b.scanned par k x p c).run.samples = (b.windowWith x).drop b.cfg.stepS := by
  simp [scanned]

theorem Block.fifoInv_scanned (h : b.FifoInv par) (hmode : b.cfg.mode ≠ .invalid) :
    (b.scanned par k x p c).FifoInv par := by
  obtain ⟨-, e⟩ | ⟨-, e⟩ :=
    ((b.setRun (b.run.absorb x)).evaluated p c).completeScan_cases par k (b.windowWith x) c <;> rw [scanned, e]
  · exact fifoInv_push h (by simp) (by simp) (resultWordOk_resultWord (by simpa using hmode) k c)
  · exact fifoInv_of_sublist h (by simp) (by simp)

end

theorem Block.Inv.scheduleInv_scanned (h : b.Inv par) (hp : par.Legal) (hst : b.stage = .scan) {k : Nat}
    (hk : completedWindow .scan b.cfg.winN b.cfg.stepS b.run.index = some k) (x : Word) (p : Bank) (c : WindowClass) :
    (b.scanned par k x p c).ScheduleInv := by
  obtain ⟨hwin, hfill⟩ := h.scan_window hst hk
  obtain ⟨hok, -⟩ := h.config
  obtain ⟨hs, hsn⟩ := cfgOk_step hp (hok hst)
  obtain ⟨hscan, -, -⟩ := h.schedule
  obtain ⟨-, hkept, -⟩ := hscan hst
  have hxs : (b.windowWith x).length = b.cfg.winN := by simp [windowWith, lastSamples_length, hfill]
  refine ⟨fun _ => ⟨?_, ?_, ?_⟩, by simp [hst], by simp [running, hst, Stage.running]⟩
  · simp [hwin, (windowsCompleted_of_some hk).2]
  · simp only [scanned_samples, scanned_wcount, scanned_index, scanned_cfg, List.length_drop, hxs, Nat.succ_mul]
    omega
  · simp only [scanned_samples, scanned_cfg, List.length_drop, hxs]
    omega

/-- A window that detects starts one step before the next one to complete; a silent one sets the gap, and the last detection
moves one step further back (R134). -/
theorem Block.Inv.debounceInv_scanned (h : b.Inv par) (hst : b.stage = .scan) {k : Nat}
    (hk : completedWindow .scan b.cfg.winN b.cfg.stepS b.run.index = some k) (x : Word) (p : Bank) (c : WindowClass) :
    (b.scanned par k x p c).DebounceInv := by
  obtain ⟨hwin, -⟩ := h.scan_window hst hk
  obtain ⟨hacc, hscan, -⟩ := h.debounce
  obtain ⟨haccvalid, hpos, -⟩ := hscan hst
  cases c with
  | detect v l g => simp [DebounceInv, scanned, hst, hwin, Nat.succ_mul]
  | none =>
    have hpos' (hv : b.run.dbValid = true) : b.run.dbPos + b.cfg.stepS ≤ (b.run.wcount + 1) * b.cfg.stepS :=
      (hpos hv).trans (Nat.mul_le_mul_right _ (Nat.le_succ _))
    simpa [DebounceInv, scanned, hst] using ⟨hacc, haccvalid, hpos'⟩

theorem Block.Inv.scanned (h : b.Inv par) (hp : par.Legal) (hst : b.stage = .scan) {k : Nat}
    (hk : completedWindow .scan b.cfg.winN b.cfg.stepS b.run.index = some k) (x : Word) (p : Bank) (c : WindowClass) :
    (b.scanned par k x p c).Inv par := by
  obtain ⟨hok, -⟩ := h.config
  obtain ⟨hmode, -⟩ := cfgOk_bounds hp (hok hst)
  exact ⟨fifoInv_scanned k x p c h.fifo hmode, ⟨fun _ => by simpa using hok hst, by simp [hst]⟩,
    h.scheduleInv_scanned hp hst hk x p c, h.debounceInv_scanned hst hk x p c⟩

/-! ### Instructions and steps -/

theorem execWrSample_inv {s t : State} {x : Word} (hp : s.par.Legal) (h : s.blk.Inv s.par)
    (he : execWrSample x s = .next t) : t.blk.Inv s.par := by
  obtain ⟨-, e⟩ | ⟨hr, hnone, e⟩ | ⟨c, hst, -, e⟩ | ⟨k, c, hst, hk, e⟩ := execWrSample_next he <;> rw [e]
  · exact h.raise .serr
  · exact h.absorb hr hnone x
  · exact h.completeOneshot hp hst x _ c
  · exact h.scanned hp hst hk x _ c

theorem exec_keeps_inv {i : Instr} {s t : State} (h : s.Inv) (he : exec i s = .next t) : t.Inv := by
  obtain ⟨hp, hb⟩ := s.inv_iff.1 h
  obtain ⟨⟨hpar, -, -⟩, hblk⟩ := exec_inv he
  rw [State.inv_iff, hpar]
  refine ⟨hp, ?_⟩
  obtain ⟨-, -, -, e⟩ | ⟨-, e⟩ | ⟨-, -, f, e⟩ | ⟨d, -, e⟩ | ⟨d, -, e⟩ | ⟨d, -, e⟩ | ⟨c, -, e⟩ | ⟨x, -, e⟩ := hblk
  · rwa [e]
  · rw [e]
    exact hb.of_sublist rfl rfl rfl (List.tail_sublist _)
  · rw [e]
    exact hb.lockedWrite f
  · rw [e]
    exact hb.of_sublist rfl rfl rfl (List.Sublist.refl _)
  · rw [e]
    exact hb.of_sublist rfl rfl rfl (List.Sublist.refl _)
  · rw [e]
    exact hb.of_sublist rfl rfl rfl (List.Sublist.refl _)
  · rw [e]
    exact hb.commandEffect hp c
  · exact execWrSample_inv hp hb e

/-- Every way a step can answer a next state: nothing was pending, an instruction ran, or the block was reset. -/
theorem step_next {s t : State} (h : step s = .next t) :
    t = s ∨ (∃ i rest, exec i (s.setHost rest) = .next t) ∨ (t.blk = Block.reset ∧ t.par = s.par) := by
  unfold step at h
  split at h
  · cases h
    exact .inl rfl
  · exact .inr (.inl ⟨_, _, h⟩)
  · cases h
    exact .inr (.inr ⟨rfl, rfl⟩)
  · right; right
    unfold resetInFlight at h
    split at h
    · split at h
      · next u hu =>
        obtain ⟨⟨hpar, -, -⟩, -⟩ := exec_inv hu
        cases h
        exact ⟨rfl, hpar⟩
      · cases h
      · cases h
    · cases h
      exact ⟨rfl, rfl⟩

end Sys2Proof.Machine
end

section
/-! PROOF. The statement that every step keeps the invariant (spec/10_state.md R38). -/

namespace Sys2Proof.Proofs

open Sys2Proof.Machine

/-- Settles O58: the invariant speaks of the block and the parameters only, an instruction keeps it by the operation on the block
that it performs, and a reset block meets it. -/
theorem invariantIsKept : Obligations.InvariantIsKept := by
  unfold Obligations.InvariantIsKept
  intro s t h hstep
  obtain rfl | ⟨i, rest, he⟩ | ⟨hblk, hpar⟩ := step_next hstep
  · exact h
  · exact exec_keeps_inv ((s.setHost rest).inv_iff.2 (s.inv_iff.1 h)) he
  · rw [State.inv_iff, hblk, hpar]
    exact ⟨h.params, Block.inv_reset _⟩

end Sys2Proof.Proofs
end

section
/-! SUPPORT. What each operation does to the flags, and what it leaves unchanged, by instruction (spec/10_state.md R24-R44,
spec/60_exceptions.md R158). -/

namespace Sys2Proof.Machine

/-! ### Flags that are set stay set -/

/-- Every sticky bit and every event bit of `b` that is 1 is 1 in `b'`. -/
def Block.KeepsFlags (b b' : Block) : Prop :=
  (∀ e, b.flag e = true → b'.flag e = true) ∧ (∀ e, b.pending e = true → b'.pending e = true)

variable {b b' b'' : Block} {par : Params}

theorem Block.KeepsFlags.of_eq (hs : b'.sticky = b.sticky) (hi : b'.irqStat = b.irqStat) : b.KeepsFlags b' :=
  ⟨fun e h => by rwa [flag, hs], fun e h => by rwa [pending, hi]⟩

theorem Block.KeepsFlags.trans (h : b.KeepsFlags b') (h' : b'.KeepsFlags b'') : b.KeepsFlags b'' :=
  ⟨fun e he => h'.1 e (h.1 e he), fun e he => h'.2 e (h.2 e he)⟩

theorem Block.keepsFlags_raise (b : Block) (e : ErrBit) : b.KeepsFlags (b.raise e) :=
  ⟨fun f h => by simp [h], fun f h => by simp [h]⟩

theorem Block.keepsFlags_event (b : Block) (e : Event) : b.KeepsFlags (b.event e) :=
  ⟨fun f h => by simp [h], fun f h => by simp [h]⟩

theorem Block.keepsFlags_setRun (b : Block) (u : Run) : b.KeepsFlags (b.setRun u) := .of_eq rfl rfl

theorem Block.keepsFlags_lockedWrite (b : Block) (f : Regs → Regs) : b.KeepsFlags (b.lockedWrite f) := by
  obtain ⟨-, e⟩ | ⟨-, e⟩ := b.lockedWrite_cases f <;> rw [e]
  · exact b.keepsFlags_raise .werr
  · exact .of_eq rfl rfl

theorem Block.keepsFlags_push (b : Block) (par : Params) (w : Word) : b.KeepsFlags (b.push par w) := by
  obtain ⟨-, e⟩ | ⟨-, e⟩ := b.push_cases par w <;> rw [e]
  · exact b.keepsFlags_raise .ovf
  · exact b.keepsFlags_event .res

theorem Block.keepsFlags_finish (b : Block) : b.KeepsFlags b.finish := b.keepsFlags_event .done

theorem Block.keepsFlags_commandEffect (b : Block) (par : Params) {c : Command} (hc : c ≠ .softReset) :
    b.KeepsFlags (commandEffect par c b) := by
  obtain ⟨-, e⟩ | ⟨-, -, e⟩ | ⟨-, -, e⟩ | ⟨-, -, e⟩ | ⟨-, -, e⟩ | ⟨-, e⟩ | ⟨-, e⟩ | ⟨h, -⟩ :=
    commandEffect_cases par c b
  · rw [e]; exact b.keepsFlags_raise .cmderr
  · rw [e]; exact .of_eq rfl rfl
  · rw [e]
    split
    · exact .of_eq rfl rfl
    · exact b.keepsFlags_raise .cfgerr
  · rw [e]
    split
    · exact .of_eq rfl rfl
    · exact b.keepsFlags_raise .cfgerr
  · rw [e]; exact b.keepsFlags_finish
  · rw [e]; exact .of_eq rfl rfl
  · rw [e]; exact .of_eq rfl rfl
  · exact absurd h hc

theorem Block.keepsFlags_evaluated (b : Block) (p : Bank) (c : WindowClass) : b.KeepsFlags (b.evaluated p c) := by
  refine ⟨fun e h => ?_, fun e h => ?_⟩
  · rw [flag, evaluated_sticky, ← flag, latch_flag, h, Bool.true_or]
  · rwa [pending, evaluated_irqStat]

theorem Block.keepsFlags_completeScan (b : Block) (par : Params) (k : Nat) (xs : List Word) (c : WindowClass) :
    b.KeepsFlags (b.completeScan par k xs c) := by
  obtain ⟨-, e⟩ | ⟨-, e⟩ := b.completeScan_cases par k xs c <;> rw [e]
  · exact (b.keepsFlags_setRun _).trans (keepsFlags_push _ par _)
  · exact b.keepsFlags_setRun _

theorem keepsFlags_execWrSample {s t : State} {x : Word} (he : execWrSample x s = .next t) : s.blk.KeepsFlags t.blk := by
  obtain ⟨-, e⟩ | ⟨-, -, e⟩ | ⟨c, -, -, e⟩ | ⟨k, c, -, -, e⟩ := execWrSample_next he <;> rw [e]
  · exact s.blk.keepsFlags_raise .serr
  · exact s.blk.keepsFlags_setRun _
  · exact (s.blk.keepsFlags_setRun _).trans <| (Block.keepsFlags_evaluated _ _ c).trans <|
      (Block.keepsFlags_push _ _ _).trans (Block.keepsFlags_finish _)
  · exact (s.blk.keepsFlags_setRun _).trans <| (Block.keepsFlags_evaluated _ _ c).trans <|
      Block.keepsFlags_completeScan _ _ _ _ _

/-! ### What commands and samples leave unchanged -/

/-- A command other than SOFT_RESET writes neither POWER, IRQ_EN nor the configuration. -/
theorem commandEffect_frame (b : Block) (par : Params) {c : Command} (hc : c ≠ .softReset) :
    (commandEffect par c b).power = b.power ∧ (commandEffect par c b).irqEn = b.irqEn ∧
    (commandEffect par c b).cfg = b.cfg := by
  obtain ⟨-, e⟩ | ⟨-, -, e⟩ | ⟨-, -, e⟩ | ⟨-, -, e⟩ | ⟨-, -, e⟩ | ⟨-, e⟩ | ⟨-, e⟩ | ⟨h, -⟩ :=
    commandEffect_cases par c b
  · simp [e]
  · simp [e]
  · rw [e]; split <;> simp
  · rw [e]; split <;> simp
  · simp [e]
  · simp [e]
  · simp [e]
  · exact absurd h hc

/-- A sample writes neither IRQ_EN nor the configuration, and outside a run neither POWER nor the run state. -/
theorem execWrSample_frame {s t : State} {x : Word} (he : execWrSample x s = .next t) :
    t.blk.irqEn = s.blk.irqEn ∧ t.blk.cfg = s.blk.cfg ∧
    (s.blk.running = false → t.blk.power = s.blk.power ∧ t.blk.run = s.blk.run) := by
  obtain ⟨-, e⟩ | ⟨hr, -, e⟩ | ⟨c, hst, -, e⟩ | ⟨k, c, hst, -, e⟩ := execWrSample_next he
  · simp [e]
  · simp [e, hr]
  · simp [e, Block.completeOneshot, Block.running, hst, Stage.running]
  · simp [e, Block.running, hst, Stage.running]

/-! ### The symbol map (R37) -/

theorem Regs.symbol_setSymmap (r : Regs) (n : Fin 2) (d : Word) {g : Nat} (hg : g < 16) :
    (r.setSymmap n d).symbol g = if g / 8 = n.val then d.extractLsb' (4 * (g % 8)) 4 else r.symbol g := by
  have hhalf : g / 8 = 0 ∨ g / 8 = 1 := by omega
  obtain rfl | rfl : n = 0 ∨ n = 1 := by omega
  · obtain h | h := hhalf <;> simp [setSymmap, symbol, h]
  · obtain h | h := hhalf <;> simp [setSymmap, symbol, h]

end Sys2Proof.Machine
end

section
/-! PROOF. The statements about the symbol map, the flags, the frame of every instruction and the interrupt level
(spec/10_state.md R24-R44). -/

namespace Sys2Proof.Proofs

open Sys2Proof.Machine

/-- Settles O27: outside a run the write is stored, and it replaces one half of the map. -/
theorem symbolMapEntries : Obligations.SymbolMapEntries := by
  unfold Obligations.SymbolMapEntries
  refine ⟨by decide, fun s n d hst => ⟨_, rfl, fun g hg => ?_⟩⟩
  obtain ⟨hr, -⟩ | ⟨-, e⟩ := s.blk.lockedWrite_cases fun r => r.setSymmap n d
  · obtain h | h := hst <;> simp [Block.running, h, Stage.running] at hr
  · rw [State.written_blk, e, Block.setCfg_cfg, Regs.symbol_setSymmap _ _ _ hg]

/-- Settles O51: by the operation on the block that the instruction performs. -/
theorem flagsAreClearedByTheirW1cOnly : Obligations.FlagsAreClearedByTheirW1cOnly := by
  unfold Obligations.FlagsAreClearedByTheirW1cOnly
  intro i s t he hsoft
  obtain ⟨-, ⟨-, -, -, e⟩ | ⟨-, e⟩ | ⟨-, -, f, e⟩ | ⟨d, hi, e⟩ | ⟨d, hi, e⟩ | ⟨d, -, e⟩ | ⟨c, hc, e⟩ | ⟨x, -, hx⟩⟩ :=
    exec_inv he
  case inr.inr.inr.inl =>
    rw [e]
    exact ⟨fun hne => absurd hi (hne d), fun _ _ h => h⟩
  case inr.inr.inr.inr.inl =>
    rw [e]
    exact ⟨fun _ _ h => h, fun hne => absurd hi (hne d)⟩
  all_goals
    suffices h : s.blk.KeepsFlags t.blk from ⟨fun _ => h.1, fun _ => h.2⟩
  · exact .of_eq (by rw [e]) (by rw [e])
  · exact .of_eq (by simp [e]) (by simp [e])
  · exact e ▸ s.blk.keepsFlags_lockedWrite f
  · exact .of_eq (by simp [e]) (by simp [e])
  · exact e ▸ s.blk.keepsFlags_commandEffect s.par (fun h => hsoft (h ▸ hc))
  · exact keepsFlags_execWrSample hx

/-- Settles O54: by the operation on the block that the instruction performs. -/
theorem whoWritesWhat : Obligations.WhoWritesWhat := by
  unfold Obligations.WhoWritesWhat
  intro i s t he
  obtain ⟨hhost, ⟨-, -, -, e⟩ | ⟨-, e⟩ | ⟨-, hl, f, e⟩ | ⟨d, -, e⟩ | ⟨d, -, e⟩ | ⟨d, hi, e⟩ | ⟨c, hc, e⟩ | ⟨x, hi, hx⟩⟩ :=
    exec_inv he
  · simp [e, hhost]
  · simp [e, hhost]
  · simp [e, hhost, hl]
  · simp [e, hhost]
  · simp [e, hhost]
  · simp [e, hhost, hi]
  · by_cases hsoft : c = .softReset
    · simp [hc, hsoft, hhost]
    · simp [e, hc, hhost, commandEffect_frame s.blk s.par hsoft]
  · obtain ⟨hirq, hcfg, hidle⟩ := execWrSample_frame hx
    cases hr : s.blk.running with
    | false => simp [hirq, hcfg, hidle hr, hhost]
    | true => simp [hirq, hcfg, hi, hhost]

/-- Settles O56: the three bits are the numbers below 3. -/
theorem interruptLevel : Obligations.InterruptLevel := by
  unfold Obligations.InterruptLevel
  refine ⟨rfl, fun b => ⟨fun h => ?_, ?_⟩⟩
  · simp only [Block.irq, Bool.or_eq_true, Bool.and_eq_true] at h
    obtain (h | h) | h := h
    · exact ⟨0, by decide, h⟩
    · exact ⟨1, by decide, h⟩
    · exact ⟨2, by decide, h⟩
  · rintro ⟨k, hk, hstat, hen⟩
    interval_cases k <;> simp [Block.irq, hstat, hen]

end Sys2Proof.Proofs
end

section
/-! SUPPORT. What a step does by the pending operation (spec/20_memory.md R49, R52), what the reads without side effect and the
locked writes do (spec/40_register_access.md R71, R72), the fields of a selector (spec/30_encoding.md R59), and the routing of a
bus access (spec/20_memory.md R46). -/

namespace Sys2Proof

/-! ### Selector fields -/

section
variable (write : Bool) (size : BitVec 2) (off : BitVec 8)

@[simp] theorem selWrite_mkSel : selWrite (mkSel write size off) = write := by
  unfold selWrite mkSel
  rw [BitVec.getLsbD_append, BitVec.getLsbD_append]
  simp

@[simp] theorem selSize_mkSel : selSize (mkSel write size off) = size := by
  unfold selSize mkSel
  refine (BitVec.extractLsb'_append_eq_of_le (by decide)).trans ?_
  exact (BitVec.extractLsb'_append_eq_of_add_le (by decide)).trans BitVec.extractLsb'_eq_self

@[simp] theorem selOff_mkSel : selOff (mkSel write size off) = off :=
  (BitVec.extractLsb'_append_eq_of_add_le (by decide)).trans BitVec.extractLsb'_eq_self

end

end Sys2Proof

namespace Sys2Proof.Machine

/-! ### Steps -/

theorem step_of_host_nil {s : State} (h : s.host = []) : step s = .next s := by
  simp only [step, h]

theorem step_of_host_busop {s : State} {sel : BitVec 11} {data : Word} {rest : List HostOp}
    (h : s.host = .busop sel data :: rest) : step s = exec (decodeBusop sel data) (s.setHost rest) := by
  simp only [step, h]

/-! ### Instructions by class -/

/-- A read without side effect only answers a word. -/
theorem exec_isPureRead {i : Instr} (h : i.isPureRead = true) (s : State) : ∃ w, exec i s = .next (s.answer w) := by
  cases i <;> simp only [Instr.isPureRead, Bool.false_eq_true] at h
  all_goals exact ⟨_, rfl⟩

/-- A write to a locked register stores one function of the configuration, under the run lock. -/
theorem exec_isLockedWrite {i : Instr} (h : i.isLockedWrite = true) :
    ∃ f, ∀ s, exec i s = .next (s.written (s.blk.lockedWrite f)) := by
  cases i <;> simp only [Instr.isLockedWrite, Bool.false_eq_true] at h
  all_goals exact ⟨_, fun _ => rfl⟩

/-- While running the lock keeps the configuration (R72). -/
theorem Block.lockedWrite_cfg_of_running {b : Block} (h : b.running = true) (f : Regs → Regs) :
    (b.lockedWrite f).cfg = b.cfg := by
  obtain ⟨-, e⟩ | ⟨hr, -⟩ := b.lockedWrite_cases f
  · rw [e, raise_cfg]
  · simp [h] at hr

/-! ### Routing -/

/-- An access in the block's window is the bus operation at its offset. -/
theorem busopOf_of_addr_eq {a : BusAccess} {off : BitVec 8} (h : a.addr = Config.baseAddr + off.setWidth 32) :
    busopOf a = some (.busop (mkSel a.write a.size off) a.data) := by
  have hoff : a.addr - Config.baseAddr = off.setWidth 32 := by rw [h, BitVec.add_comm, BitVec.add_sub_cancel]
  have hlow : (off.setWidth 32).extractLsb' 0 8 = off := by
    rw [← BitVec.setWidth_eq_extractLsb' (by decide), BitVec.setWidth_setWidth_of_le _ (by decide), BitVec.setWidth_eq]
  have hle : (off.setWidth 32).toNat ≤ 0xFF := by
    rw [BitVec.toNat_setWidth_of_le (by decide)]
    exact Nat.le_of_lt_succ off.isLt
  simp only [busopOf, hoff]
  rw [if_pos hle, hlow]

theorem busopOf_eq_none {a : BusAccess} (h : 0xFF < (a.addr - Config.baseAddr).toNat) : busopOf a = none :=
  if_neg (Nat.not_le.2 h)

end Sys2Proof.Machine
end

section
/-! PROOF. The statements about operations as indivisible steps, reads, routing and the configuration of a run
(spec/20_memory.md R46-R56). -/

namespace Sys2Proof.Proofs

open Sys2Proof.Machine

/-- Settles O53: only a locked write or SOFT_RESET can change the configuration, and while running the lock refuses the write. -/
theorem configurationIsConstantDuringARun : Obligations.ConfigurationIsConstantDuringARun := by
  unfold Obligations.ConfigurationIsConstantDuringARun
  intro i s t he hr
  obtain ⟨-, -, hcfg | hlocked | hsoft, -⟩ := whoWritesWhat i s t he
  · exact .inl hcfg
  · obtain ⟨f, hf⟩ := exec_isLockedWrite hlocked
    rw [hf] at he
    cases he
    exact .inl (Block.lockedWrite_cfg_of_running hr f)
  · exact .inr hsoft

/-- Settles O7: by the equation of `step` for an operation at the head and for the empty list. -/
theorem stepRunsTheDecodedInstruction : Obligations.StepRunsTheDecodedInstruction := by
  unfold Obligations.StepRunsTheDecodedInstruction
  exact ⟨fun _ _ _ _ h => step_of_host_busop h, fun _ h => step_of_host_nil h⟩

/-- Settles O12: the selector is the one made of W, SZ and the offset. -/
theorem routingTakesTheOffset : Obligations.RoutingTakesTheOffset := by
  unfold Obligations.RoutingTakesTheOffset
  refine ⟨fun a off h => ⟨mkSel a.write a.size off, busopOf_of_addr_eq h, ?_, ?_, ?_⟩, fun a h => busopOf_eq_none h⟩
  · exact selWrite_mkSel _ _ _
  · exact selSize_mkSel _ _ _
  · exact selOff_mkSel _ _ _

/-- Settles O20: such a read is an answer, and an answer writes the response only. -/
theorem pureReadsHaveNoSideEffect : Obligations.PureReadsHaveNoSideEffect := by
  unfold Obligations.PureReadsHaveNoSideEffect
  exact fun i s h => exec_isPureRead h s

end Sys2Proof.Proofs
end

section
/-! SUPPORT. The encodings (spec/30_encoding.md R58-R65): a selector as its fields, one equation of the decoder per kind of
selector, offset range and command, the encoder as the decoder's inverse both ways, and the rows of the opcode table. -/

namespace Sys2Proof

/-! ### Fields that are put together again -/

/-- A selector is made of its three fields (R59). -/
@[simp] theorem mkSel_fields (sel : BitVec 11) : mkSel (selWrite sel) (selSize sel) (selOff sel) = sel := by
  have hw : BitVec.ofBool (selWrite sel) = sel.extractLsb' 10 1 := by
    apply BitVec.eq_of_getElem_eq
    simp [selWrite]
  unfold mkSel
  rw [hw]
  unfold selSize selOff
  rw [BitVec.extractLsb'_append_extractLsb'_eq_extractLsb' (by decide),
    BitVec.extractLsb'_append_extractLsb'_eq_extractLsb' (by decide)]
  exact BitVec.extractLsb'_eq_self

theorem selLegal_mkSel {write : Bool} {size : BitVec 2} {off : BitVec 8} :
    selLegal (mkSel write size off) = true ↔ size = 2#2 ∧ off.toNat % 4 = 0 := by
  simp [selLegal]

/-- A word is made of its four byte lanes (spec/20_memory.md R47). -/
theorem lanes_append (w : Word) :
    w.extractLsb' 24 8 ++ w.extractLsb' 16 8 ++ w.extractLsb' 8 8 ++ w.extractLsb' 0 8 = w := by
  rw [BitVec.extractLsb'_append_extractLsb'_eq_extractLsb' (by decide),
    BitVec.extractLsb'_append_extractLsb'_eq_extractLsb' (by decide),
    BitVec.extractLsb'_append_extractLsb'_eq_extractLsb' (by decide)]
  exact BitVec.extractLsb'_eq_self

/-- The bytes of a code are read back as that code (log 6). -/
theorem codeOfBytes_bytes (c : Code) : codeOfBytes c.bytes = .ok c := by
  cases c with
  | cmd32 word =>
    simp only [Code.bytes, codeOfBytes]
    exact congrArg (fun w => Except.ok (Code.cmd32 w)) (lanes_append word)
  | busop sel data =>
    have hpad : (0#5 ++ sel.extractLsb' 8 3).toNat < 8 := by
      rw [BitVec.toNat_append, BitVec.toNat_zero, Nat.zero_shiftLeft, Nat.zero_or]
      exact (sel.extractLsb' 8 3).isLt
    have hsel : (0#5 ++ sel.extractLsb' 8 3).extractLsb' 0 3 ++ sel.extractLsb' 0 8 = sel := by
      rw [BitVec.extractLsb'_append_eq_right, BitVec.extractLsb'_append_extractLsb'_eq_extractLsb' (by decide)]
      exact BitVec.extractLsb'_eq_self
    simp only [Code.bytes, codeOfBytes]
    rw [if_pos hpad, hsel, lanes_append]

/-! ### Offsets of the indexed rows (R60) -/

theorem toNat_offsetAt {base j : Nat} (h : base + 4 * j < 256) : (offsetAt base j).toNat = base + 4 * j := by
  rw [offsetAt, BitVec.toNat_ofNat, Nat.mod_eq_of_lt h]

/-- An offset of a bank of `n` words is aligned and lies in the bank. -/
theorem offsetAt_bounds {base n j : Nat} (hb : base % 4 = 0) (hn : base + 4 * n ≤ 256) (hj : j < n) :
    (offsetAt base j).toNat % 4 = 0 ∧ base ≤ (offsetAt base j).toNat ∧ (offsetAt base j).toNat < base + 4 * n := by
  rw [toNat_offsetAt] <;> omega

/-- A bank's base and the slot index of an offset in the bank give the offset. -/
theorem offsetAt_slotOf {off : BitVec 8} {base : Nat} (hb : base % 64 = 0) (hlo : base ≤ off.toNat)
    (hhi : off.toNat < base + 64) (h : off.toNat % 4 = 0) : offsetAt base (slotOf off) = off := by
  apply BitVec.eq_of_toNat_eq
  rw [toNat_offsetAt] <;> simp only [slotOf] <;> omega

theorem offsetAt_mapIndexOf {off : BitVec 8} (hlo : 0xC0 ≤ off.toNat) (hhi : off.toNat < 0xC8)
    (h : off.toNat % 4 = 0) : offsetAt 0xC0 (mapIndexOf off) = off := by
  apply BitVec.eq_of_toNat_eq
  rw [toNat_offsetAt] <;> simp only [mapIndexOf] <;> omega

theorem slotOf_offsetAt {base : Nat} (hb : base % 64 = 0) (hbase : base + 64 ≤ 256) (j : Slot) :
    slotOf (offsetAt base j) = j := by
  apply Fin.ext
  simp only [slotOf]
  rw [toNat_offsetAt] <;> omega

theorem mapIndexOf_offsetAt (n : Fin 2) : mapIndexOf (offsetAt 0xC0 n) = n := by
  apply Fin.ext
  simp only [mapIndexOf]
  rw [toNat_offsetAt] <;> omega

theorem offsetIn_iff {lo hi : Nat} {off : BitVec 8} :
    offsetIn lo hi off = true ↔ off.toNat % 4 = 0 ∧ lo ≤ off.toNat ∧ off.toNat ≤ hi := by
  simp [offsetIn, and_assoc]

/-! ### The decoder on an aligned offset (R60): its ranges -/

section
variable {off : BitVec 8}

theorem decodeRead_coef (hlo : 0x40 ≤ off.toNat) (hhi : off.toNat < 0x80) : decodeRead off = .rdCoef (slotOf off) := by
  rw [decodeRead, if_neg (by omega), if_pos (by omega)]

theorem decodeRead_power (hlo : 0x80 ≤ off.toNat) (hhi : off.toNat < 0xC0) : decodeRead off = .rdPower (slotOf off) := by
  rw [decodeRead, if_neg (by omega), if_neg (by omega), if_pos (by omega)]

theorem decodeRead_symmap (hlo : 0xC0 ≤ off.toNat) (hhi : off.toNat < 0xC8) :
    decodeRead off = .rdSymmap (mapIndexOf off) := by
  rw [decodeRead, if_neg (by omega), if_neg (by omega), if_neg (by omega), if_pos (by omega)]

theorem decodeRead_rsvdC8 (hlo : 0xC8 ≤ off.toNat) (hhi : off.toNat < 0xD0) : decodeRead off = .rdRsvdC8 off := by
  rw [decodeRead, if_neg (by omega), if_neg (by omega), if_neg (by omega), if_neg (by omega), if_pos (by omega)]

theorem decodeRead_rsvdD0 (hlo : 0xD0 ≤ off.toNat) (hhi : off.toNat < 0xE0) : decodeRead off = .rdRsvdD0 off := by
  rw [decodeRead, if_neg (by omega), if_neg (by omega), if_neg (by omega), if_neg (by omega), if_neg (by omega),
    if_pos (by omega)]

theorem decodeRead_rsvdE0 (hlo : 0xE0 ≤ off.toNat) : decodeRead off = .rdRsvdE0 off := by
  rw [decodeRead, if_neg (by omega), if_neg (by omega), if_neg (by omega), if_neg (by omega), if_neg (by omega),
    if_neg (by omega)]

variable (data : Word)

theorem decodeWrite_coef (hlo : 0x40 ≤ off.toNat) (hhi : off.toNat < 0x80) :
    decodeWrite off data = .wrCoef (slotOf off) data := by
  rw [decodeWrite, if_neg (by omega), if_pos (by omega)]

theorem decodeWrite_roPower (hlo : 0x80 ≤ off.toNat) (hhi : off.toNat < 0xC0) :
    decodeWrite off data = .wrRoPower (slotOf off) data := by
  rw [decodeWrite, if_neg (by omega), if_neg (by omega), if_pos (by omega)]

theorem decodeWrite_symmap (hlo : 0xC0 ≤ off.toNat) (hhi : off.toNat < 0xC8) :
    decodeWrite off data = .wrSymmap (mapIndexOf off) data := by
  rw [decodeWrite, if_neg (by omega), if_neg (by omega), if_neg (by omega), if_pos (by omega)]

theorem decodeWrite_rsvdC8 (hlo : 0xC8 ≤ off.toNat) (hhi : off.toNat < 0xD0) :
    decodeWrite off data = .wrRsvdC8 off data := by
  rw [decodeWrite, if_neg (by omega), if_neg (by omega), if_neg (by omega), if_neg (by omega), if_pos (by omega)]

theorem decodeWrite_rsvdD0 (hlo : 0xD0 ≤ off.toNat) (hhi : off.toNat < 0xE0) :
    decodeWrite off data = .wrRsvdD0 off data := by
  rw [decodeWrite, if_neg (by omega), if_neg (by omega), if_neg (by omega), if_neg (by omega), if_neg (by omega),
    if_pos (by omega)]

theorem decodeWrite_rsvdE0 (hlo : 0xE0 ≤ off.toNat) : decodeWrite off data = .wrRsvdE0 off data := by
  rw [decodeWrite, if_neg (by omega), if_neg (by omega), if_neg (by omega), if_neg (by omega), if_neg (by omega),
    if_neg (by omega)]

/-- The two words at the base of the register map are WR_RO's. -/
theorem decodeWrite_roIdVersion (h : offsetIn 0x00 0x04 off = true) : decodeWrite off data = .wrRoIdVersion off data := by
  obtain ⟨halign, hlo, hhi⟩ := offsetIn_iff.1 h
  obtain rfl | rfl : off = 0x00#8 ∨ off = 0x04#8 := by bv_omega
  · rfl
  · rfl

theorem decodeWrite_roCounters (h : offsetIn 0x38 0x3C off = true) : decodeWrite off data = .wrRoCounters off data := by
  obtain ⟨halign, hlo, hhi⟩ := offsetIn_iff.1 h
  obtain rfl | rfl : off = 0x38#8 ∨ off = 0x3C#8 := by bv_omega
  · rfl
  · rfl

/-- The ranges of R60's table. -/
theorem offset_ranges (off : BitVec 8) :
    off.toNat < 0x40 ∨ (0x40 ≤ off.toNat ∧ off.toNat < 0x80) ∨ (0x80 ≤ off.toNat ∧ off.toNat < 0xC0) ∨
    (0xC0 ≤ off.toNat ∧ off.toNat < 0xC8) ∨ (0xC8 ≤ off.toNat ∧ off.toNat < 0xD0) ∨
    (0xD0 ≤ off.toNat ∧ off.toNat < 0xE0) ∨ 0xE0 ≤ off.toNat := by
  omega

/-- The instruction of an aligned read stands for that read. -/
theorem encode_decodeRead (h : off.toNat % 4 = 0) :
    (decodeRead off).wellFormed = true ∧ encode (decodeRead off) = encodeRead off := by
  obtain hhi | ⟨hlo, hhi⟩ | ⟨hlo, hhi⟩ | ⟨hlo, hhi⟩ | ⟨hlo, hhi⟩ | ⟨hlo, hhi⟩ | hlo := offset_ranges off
  · have hoff : offsetAt 0x00 (slotOf off) = off := offsetAt_slotOf rfl (Nat.zero_le _) hhi h
    rw [← hoff]
    generalize slotOf off = k
    revert k
    decide
  · rw [decodeRead_coef hlo hhi]
    exact ⟨rfl, congrArg encodeRead (offsetAt_slotOf rfl hlo hhi h)⟩
  · rw [decodeRead_power hlo hhi]
    exact ⟨rfl, congrArg encodeRead (offsetAt_slotOf rfl hlo hhi h)⟩
  · rw [decodeRead_symmap hlo hhi]
    exact ⟨rfl, congrArg encodeRead (offsetAt_mapIndexOf hlo hhi h)⟩
  · rw [decodeRead_rsvdC8 hlo hhi]
    exact ⟨offsetIn_iff.2 (by omega), rfl⟩
  · rw [decodeRead_rsvdD0 hlo hhi]
    exact ⟨offsetIn_iff.2 (by omega), rfl⟩
  · rw [decodeRead_rsvdE0 hlo]
    exact ⟨offsetIn_iff.2 (by omega), rfl⟩

/-- The instruction of an aligned write stands for that write, its data word included. -/
theorem encode_decodeWrite (h : off.toNat % 4 = 0) :
    (decodeWrite off data).wellFormed = true ∧ encode (decodeWrite off data) = encodeWrite off data := by
  obtain hhi | ⟨hlo, hhi⟩ | ⟨hlo, hhi⟩ | ⟨hlo, hhi⟩ | ⟨hlo, hhi⟩ | ⟨hlo, hhi⟩ | hlo := offset_ranges off
  · have hoff : offsetAt 0x00 (slotOf off) = off := offsetAt_slotOf rfl (Nat.zero_le _) hhi h
    rw [← hoff]
    generalize slotOf off = k
    fin_cases k <;> exact ⟨rfl, rfl⟩
  · rw [decodeWrite_coef data hlo hhi]
    exact ⟨rfl, congrArg (encodeWrite · data) (offsetAt_slotOf rfl hlo hhi h)⟩
  · rw [decodeWrite_roPower data hlo hhi]
    exact ⟨rfl, congrArg (encodeWrite · data) (offsetAt_slotOf rfl hlo hhi h)⟩
  · rw [decodeWrite_symmap data hlo hhi]
    exact ⟨rfl, congrArg (encodeWrite · data) (offsetAt_mapIndexOf hlo hhi h)⟩
  · rw [decodeWrite_rsvdC8 data hlo hhi]
    exact ⟨offsetIn_iff.2 (by omega), rfl⟩
  · rw [decodeWrite_rsvdD0 data hlo hhi]
    exact ⟨offsetIn_iff.2 (by omega), rfl⟩
  · rw [decodeWrite_rsvdE0 data hlo]
    exact ⟨offsetIn_iff.2 (by omega), rfl⟩

end

/-! ### The decoder on a selector (R60, R61) -/

section
variable (write : Bool) (off : BitVec 8) (data : Word)

@[simp] theorem decodeBusop_byte : decodeBusop (mkSel write 0#2 off) data = .badAccessSz0 write off := by
  simp [decodeBusop]

@[simp] theorem decodeBusop_halfword : decodeBusop (mkSel write 1#2 off) data = .badAccessSz1 write off := by
  simp [decodeBusop]

@[simp] theorem decodeBusop_reservedSize : decodeBusop (mkSel write 3#2 off) data = .badAccessSz3 write off := by
  simp [decodeBusop]

variable {off}

theorem decodeBusop_odd (h : off.toNat % 2 = 1) : decodeBusop (mkSel write 2#2 off) data = .badAccessOdd write off := by
  simp [decodeBusop, h]

theorem decodeBusop_half (h : off.toNat % 4 = 2) : decodeBusop (mkSel write 2#2 off) data = .badAccessHalf write off := by
  have heven : off.toNat % 2 ≠ 1 := by omega
  simp [decodeBusop, h, heven]

theorem decodeBusop_read (h : off.toNat % 4 = 0) : decodeBusop (mkSel false 2#2 off) data = decodeRead off := by
  have heven : off.toNat % 2 ≠ 1 := by omega
  simp [decodeBusop, h, heven]

theorem decodeBusop_write (h : off.toNat % 4 = 0) : decodeBusop (mkSel true 2#2 off) data = decodeWrite off data := by
  have heven : off.toNat % 2 ≠ 1 := by omega
  simp [decodeBusop, h, heven]

end

/-! ### The decoder on a command word (R63, R64) -/

theorem decodeCommand_of_seven_le {word : Word} (h : 7 ≤ word.toNat) : decodeCommand word = .invalid word := by
  unfold decodeCommand
  split
  case h_8 => rfl
  all_goals omega

/-- A word that is none of R63's, or one of its seven. -/
theorem word_cases (word : Word) :
    7 ≤ word.toNat ∨ word = 0#32 ∨ word = 1#32 ∨ word = 2#32 ∨ word = 3#32 ∨ word = 4#32 ∨ word = 5#32 ∨ word = 6#32 := by
  bv_omega

/-- A word is above 6 iff its low byte is or a higher bit is set. -/
theorem seven_le_toNat_iff (word : Word) :
    7 ≤ word.toNat ↔ 7 ≤ (word.extractLsb' 0 8).toNat ∨ word.extractLsb' 8 24 ≠ 0#24 := by
  have hlow : (word.extractLsb' 0 8).toNat = word.toNat % 256 := BitVec.extractLsb'_toNat ..
  have hhigh : word.extractLsb' 8 24 = 0#24 ↔ word.toNat / 256 = 0 := by
    rw [← BitVec.toNat_inj, BitVec.extractLsb'_toNat, Nat.shiftRight_eq_div_pow, BitVec.toNat_ofNat,
      Nat.mod_eq_of_lt (by omega)]
  rw [hlow, ne_eq, hhigh]
  omega

/-! ### Decode and encode are inverse to each other -/

theorem decode_encodeRead {off : BitVec 8} (h : off.toNat % 4 = 0) : decode (encodeRead off) = decodeRead off :=
  decodeBusop_read _ h

theorem decode_encodeWrite {off : BitVec 8} (data : Word) (h : off.toNat % 4 = 0) :
    decode (encodeWrite off data) = decodeWrite off data :=
  decodeBusop_write _ h

/-- Every well-formed instruction decodes back from its words. -/
theorem decode_encode {i : Instr} (h : i.wellFormed = true) : decode (encode i) = i := by
  cases i with
  | rdCoef j =>
    obtain ⟨halign, hlo, hhi⟩ := offsetAt_bounds (base := 0x40) rfl (by decide) j.isLt
    rw [encode, decode_encodeRead halign, decodeRead_coef hlo hhi, slotOf_offsetAt rfl (by decide)]
  | rdPower j =>
    obtain ⟨halign, hlo, hhi⟩ := offsetAt_bounds (base := 0x80) rfl (by decide) j.isLt
    rw [encode, decode_encodeRead halign, decodeRead_power hlo hhi, slotOf_offsetAt rfl (by decide)]
  | rdSymmap n =>
    obtain ⟨halign, hlo, hhi⟩ := offsetAt_bounds (base := 0xC0) rfl (by decide) n.isLt
    rw [encode, decode_encodeRead halign, decodeRead_symmap hlo hhi, mapIndexOf_offsetAt]
  | rdRsvdC8 off =>
    obtain ⟨halign, hlo, hhi⟩ := offsetIn_iff.1 h
    exact (decode_encodeRead halign).trans (decodeRead_rsvdC8 hlo (by omega))
  | rdRsvdD0 off =>
    obtain ⟨halign, hlo, hhi⟩ := offsetIn_iff.1 h
    exact (decode_encodeRead halign).trans (decodeRead_rsvdD0 hlo (by omega))
  | rdRsvdE0 off =>
    obtain ⟨halign, hlo, hhi⟩ := offsetIn_iff.1 h
    exact (decode_encodeRead halign).trans (decodeRead_rsvdE0 hlo)
  | wrRoIdVersion off data => exact (decode_encodeWrite data (offsetIn_iff.1 h).1).trans (decodeWrite_roIdVersion data h)
  | wrRoCounters off data => exact (decode_encodeWrite data (offsetIn_iff.1 h).1).trans (decodeWrite_roCounters data h)
  | wrCoef j data =>
    obtain ⟨halign, hlo, hhi⟩ := offsetAt_bounds (base := 0x40) rfl (by decide) j.isLt
    rw [encode, decode_encodeWrite data halign, decodeWrite_coef data hlo hhi, slotOf_offsetAt rfl (by decide)]
  | wrRoPower j data =>
    obtain ⟨halign, hlo, hhi⟩ := offsetAt_bounds (base := 0x80) rfl (by decide) j.isLt
    rw [encode, decode_encodeWrite data halign, decodeWrite_roPower data hlo hhi, slotOf_offsetAt rfl (by decide)]
  | wrSymmap n data =>
    obtain ⟨halign, hlo, hhi⟩ := offsetAt_bounds (base := 0xC0) rfl (by decide) n.isLt
    rw [encode, decode_encodeWrite data halign, decodeWrite_symmap data hlo hhi, mapIndexOf_offsetAt]
  | wrRsvdC8 off data =>
    obtain ⟨halign, hlo, hhi⟩ := offsetIn_iff.1 h
    exact (decode_encodeWrite data halign).trans (decodeWrite_rsvdC8 data hlo (by omega))
  | wrRsvdD0 off data =>
    obtain ⟨halign, hlo, hhi⟩ := offsetIn_iff.1 h
    exact (decode_encodeWrite data halign).trans (decodeWrite_rsvdD0 data hlo (by omega))
  | wrRsvdE0 off data =>
    obtain ⟨halign, hlo, hhi⟩ := offsetIn_iff.1 h
    exact (decode_encodeWrite data halign).trans (decodeWrite_rsvdE0 data hlo)
  | badAccessSz0 write off => exact decodeBusop_byte write off 0#32
  | badAccessSz1 write off => exact decodeBusop_halfword write off 0#32
  | badAccessSz3 write off => exact decodeBusop_reservedSize write off 0#32
  | badAccessOdd write off => exact decodeBusop_odd write 0#32 (eq_of_beq h)
  | badAccessHalf write off => exact decodeBusop_half write 0#32 (eq_of_beq h)
  | cmdInvalid word => exact congrArg Command.instr (decodeCommand_of_seven_le (of_decide_eq_true h))
  | _ => rfl

/-- The instruction a selector decodes to is well formed and stands for the selector, and a legal write's for its data word
too. -/
theorem encode_decodeBusop (sel : BitVec 11) (data : Word) :
    (decodeBusop sel data).wellFormed = true ∧ ∃ data', encode (decodeBusop sel data) = .busop sel data' ∧
      (selLegal sel = true → selWrite sel = true → data' = data) := by
  obtain ⟨write, size, off, rfl⟩ : ∃ write size off, sel = mkSel write size off := ⟨_, _, _, (mkSel_fields sel).symm⟩
  obtain rfl | rfl | rfl | rfl : size = 0#2 ∨ size = 1#2 ∨ size = 2#2 ∨ size = 3#2 := by bv_omega
  · rw [decodeBusop_byte]
    exact ⟨rfl, _, rfl, fun hl => absurd (selLegal_mkSel.1 hl).1 (by decide)⟩
  · rw [decodeBusop_halfword]
    exact ⟨rfl, _, rfl, fun hl => absurd (selLegal_mkSel.1 hl).1 (by decide)⟩
  · obtain hodd | hhalf | halign : off.toNat % 2 = 1 ∨ off.toNat % 4 = 2 ∨ off.toNat % 4 = 0 := by omega
    · rw [decodeBusop_odd _ _ hodd]
      exact ⟨beq_of_eq hodd, _, rfl, fun hl => absurd (selLegal_mkSel.1 hl).2 (by omega)⟩
    · rw [decodeBusop_half _ _ hhalf]
      exact ⟨beq_of_eq hhalf, _, rfl, fun hl => absurd (selLegal_mkSel.1 hl).2 (by omega)⟩
    · cases write with
      | false =>
        obtain ⟨hwf, henc⟩ := encode_decodeRead halign
        rw [decodeBusop_read _ halign]
        exact ⟨hwf, _, henc, by simp⟩
      | true =>
        obtain ⟨hwf, henc⟩ := encode_decodeWrite data halign
        rw [decodeBusop_write _ halign]
        exact ⟨hwf, _, henc, fun _ _ => rfl⟩
  · rw [decodeBusop_reservedSize]
    exact ⟨rfl, _, rfl, fun hl => absurd (selLegal_mkSel.1 hl).1 (by decide)⟩

/-- The instruction of a command word is well formed and stands for that word. -/
theorem encode_decodeCmd32 (word : Word) :
    (decodeCmd32 word).wellFormed = true ∧ encode (decodeCmd32 word) = .cmd32 word := by
  obtain h | rfl | rfl | rfl | rfl | rfl | rfl | rfl := word_cases word
  · rw [decodeCmd32, decodeCommand_of_seven_le h]
    exact ⟨decide_eq_true h, rfl⟩
  all_goals exact ⟨rfl, rfl⟩

/-- What a code decodes to is well formed. -/
theorem wellFormed_decode (c : Code) : (decode c).wellFormed = true :=
  match c with
  | .busop sel data => (encode_decodeBusop sel data).1
  | .cmd32 word => (encode_decodeCmd32 word).1

/-- A command word selects a well-formed instruction iff it is that instruction's word (R63, R64). -/
theorem decode_cmd32_eq_iff {i : Instr} {w : Word} (hwf : i.wellFormed = true) (henc : encode i = .cmd32 w) (word : Word) :
    decode (.cmd32 word) = i ↔ word = w := by
  constructor
  · intro h
    have hword : encode (decode (.cmd32 word)) = .cmd32 word := (encode_decodeCmd32 word).2
    rw [h, henc] at hword
    exact (Code.cmd32.inj hword).symm
  · rintro rfl
    rw [← henc]
    exact decode_encode hwf

theorem decode_cmd32_eq_cmdInvalid_iff (word : Word) : decode (.cmd32 word) = .cmdInvalid word ↔ 7 ≤ word.toNat := by
  constructor
  · intro h
    have hwf := wellFormed_decode (.cmd32 word)
    rw [h] at hwf
    exact of_decide_eq_true hwf
  · intro h
    exact decode_encode (i := .cmdInvalid word) (decide_eq_true h)

/-! ### The rows of the opcode table (R60, R61) -/

/-- Two rows share no selector: on the bits both masks look at, their values differ. -/
def Row.Apart (q r : Row) : Prop := q.value &&& r.mask ≠ r.value &&& q.mask

theorem Row.Apart.not_covers {q r : Row} (h : q.Apart r) {sel : BitVec 11} (hq : q.covers sel = true) :
    r.covers sel = false := by
  simp only [Row.covers, beq_iff_eq] at hq
  refine beq_eq_false_iff_ne.2 fun hr => h ?_
  rw [← hq, ← hr, BitVec.and_assoc, BitVec.and_assoc, BitVec.and_comm q.mask]

theorem busopRows_pairwise_apart : busopRows.Pairwise Row.Apart := by
  unfold Row.Apart
  decide

/-- Where no two members satisfy a predicate together, a member that does is all that a filter keeps. -/
theorem filter_eq_singleton {α : Type} {p : α → Bool} {l : List α} {r : α}
    (hl : l.Pairwise fun a b => p a = true → p b = false) (hr : r ∈ l) (hp : p r = true) : l.filter p = [r] := by
  induction l with
  | nil => cases hr
  | cons a l ih =>
    obtain ⟨ha, htail⟩ := List.pairwise_cons.1 hl
    obtain rfl | hmem := List.mem_cons.1 hr
    · rw [List.filter_cons_of_pos hp, List.filter_eq_nil_iff.2 fun b hb => by simp [ha b hb hp]]
    · have hna : ¬p a = true := fun hpa => by simp [ha r hmem hpa] at hp
      rw [List.filter_cons_of_neg hna, ih htail hmem]

open Laws in
/-- The words of every well-formed instruction belong to its own row (Laws/PerInstr.lean). -/
theorem encode_inRow (i : Instr) : RowWord.Statement i :=
  match i with
  | .rdId => RowWord.rdId
  | .rdVersion => RowWord.rdVersion
  | .rdCtrl => RowWord.rdCtrl
  | .rdWoCmd => RowWord.rdWoCmd
  | .rdStatus => RowWord.rdStatus
  | .rdIrqEn => RowWord.rdIrqEn
  | .rdIrqStat => RowWord.rdIrqStat
  | .rdWinLen => RowWord.rdWinLen
  | .rdWinStep => RowWord.rdWinStep
  | .rdDbGuard => RowWord.rdDbGuard
  | .rdThresh => RowWord.rdThresh
  | .rdRatio => RowWord.rdRatio
  | .rdWoSample => RowWord.rdWoSample
  | .rdResult => RowWord.rdResult
  | .rdSampleCnt => RowWord.rdSampleCnt
  | .rdWinCnt => RowWord.rdWinCnt
  | .rdCoef j => RowWord.rdCoef j
  | .rdPower j => RowWord.rdPower j
  | .rdSymmap n => RowWord.rdSymmap n
  | .rdRsvdC8 off => RowWord.rdRsvdC8 off
  | .rdRsvdD0 off => RowWord.rdRsvdD0 off
  | .rdRsvdE0 off => RowWord.rdRsvdE0 off
  | .wrRoIdVersion off data => RowWord.wrRoIdVersion off data
  | .wrCtrl data => RowWord.wrCtrl data
  | .wrCmd data => RowWord.wrCmd data
  | .wrStatus data => RowWord.wrStatus data
  | .wrIrqEn data => RowWord.wrIrqEn data
  | .wrIrqStat data => RowWord.wrIrqStat data
  | .wrWinLen data => RowWord.wrWinLen data
  | .wrWinStep data => RowWord.wrWinStep data
  | .wrDbGuard data => RowWord.wrDbGuard data
  | .wrThresh data => RowWord.wrThresh data
  | .wrRatio data => RowWord.wrRatio data
  | .wrSample data => RowWord.wrSample data
  | .wrRoResult data => RowWord.wrRoResult data
  | .wrRoCounters off data => RowWord.wrRoCounters off data
  | .wrCoef j data => RowWord.wrCoef j data
  | .wrRoPower j data => RowWord.wrRoPower j data
  | .wrSymmap n data => RowWord.wrSymmap n data
  | .wrRsvdC8 off data => RowWord.wrRsvdC8 off data
  | .wrRsvdD0 off data => RowWord.wrRsvdD0 off data
  | .wrRsvdE0 off data => RowWord.wrRsvdE0 off data
  | .badAccessSz0 write off => RowWord.badAccessSz0 write off
  | .badAccessSz1 write off => RowWord.badAccessSz1 write off
  | .badAccessSz3 write off => RowWord.badAccessSz3 write off
  | .badAccessOdd write off => RowWord.badAccessOdd write off
  | .badAccessHalf write off => RowWord.badAccessHalf write off
  | .nop => RowWord.nop
  | .startScan => RowWord.startScan
  | .startOneshot => RowWord.startOneshot
  | .endStream => RowWord.endStream
  | .abort => RowWord.abort
  | .flush => RowWord.flush
  | .softReset => RowWord.softReset
  | .cmdInvalid word => RowWord.cmdInvalid word

/-- Exactly one BUSOP row covers a selector, and it is the row of the selector's instruction. -/
theorem busopRows_filter_covers (sel : BitVec 11) (data : Word) :
    ∃ r : Row, busopRows.filter (fun q => q.covers sel) = [r] ∧ r.mnemonic = (decodeBusop sel data).mnemonic := by
  obtain ⟨hwf, data', henc, -⟩ := encode_decodeBusop sel data
  have hrow := encode_inRow (decodeBusop sel data) hwf
  rw [henc] at hrow
  obtain ⟨r, hmem, hname, hcovers⟩ := hrow
  exact ⟨r, filter_eq_singleton (busopRows_pairwise_apart.imp fun h => h.not_covers) hmem hcovers, hname⟩

end Sys2Proof
end

section
/-! SUPPORT. A locked write outside a run (spec/40_register_access.md R72). -/

namespace Sys2Proof.Machine

theorem Block.running_eq_false {b : Block} (h : b.stage = .idle ∨ b.stage = .done) : b.running = false := by
  obtain h | h := h <;> simp [Block.running, h, Stage.running]

/-- Outside a run the lock lets the write store. -/
theorem Block.lockedWrite_of_not_running {b : Block} (h : b.running = false) (f : Regs → Regs) :
    b.lockedWrite f = b.setCfg (f b.cfg) := by
  obtain ⟨hr, -⟩ | ⟨-, e⟩ := b.lockedWrite_cases f
  · simp [h] at hr
  · exact e

/-- Outside a run a write under the lock changes the configuration and the response only. -/
theorem written_lockedWrite {s : State} (h : s.blk.running = false) (f : Regs → Regs) :
    s.written (s.blk.lockedWrite f) = { s with blk := { s.blk with cfg := f s.blk.cfg }, resp := .written } := by
  rw [Block.lockedWrite_of_not_running h]
  rfl

end Sys2Proof.Machine
end

section
/-! PROOF. The statements about the encodings (spec/30_encoding.md R58-R65) and about configuration writes outside a run
(spec/40_register_access.md). -/

namespace Sys2Proof.Proofs

open Sys2Proof.Machine

/-- Settles O2: by the constructor, whose offset lies in the range that the decoder gives back to it. -/
theorem decodeEncodeRoundTrip : Obligations.DecodeEncodeRoundTrip := by
  unfold Obligations.DecodeEncodeRoundTrip
  exact fun _ h => decode_encode h

/-- Settles O3: the instruction that a selector or a command word decodes to stands for it. -/
theorem encodeDecodeKeepsEveryBit : Obligations.EncodeDecodeKeepsEveryBit := by
  unfold Obligations.EncodeDecodeKeepsEveryBit
  refine ⟨fun sel data => ?_, fun word => ?_, fun c => wellFormed_decode c⟩
  · obtain ⟨-, hcode⟩ := encode_decodeBusop sel data
    exact hcode
  · obtain ⟨-, hcode⟩ := encode_decodeCmd32 word
    exact hcode

/-- Settles O4: the row of the selector's instruction covers it, and no two rows share a selector. -/
theorem everySelectorHasOneRow : Obligations.EverySelectorHasOneRow := by
  unfold Obligations.EverySelectorHasOneRow
  exact ⟨rfl, busopRows_filter_covers⟩

/-- Settles O5: a word selects a command iff it is the word the command encodes to. -/
theorem commandWordsAreExact : Obligations.CommandWordsAreExact := by
  unfold Obligations.CommandWordsAreExact
  intro word
  refine ⟨?_, ?_, ?_, ?_, ?_, ?_, ?_, (decode_cmd32_eq_cmdInvalid_iff word).trans (seven_le_toNat_iff word)⟩
  all_goals exact decode_cmd32_eq_iff rfl rfl word

/-- Settles O6: the selector and the words are put together from their bytes again. -/
theorem codeBytesRoundTrip : Obligations.CodeBytesRoundTrip := by
  unfold Obligations.CodeBytesRoundTrip
  exact codeOfBytes_bytes

/-- Settles O1: by running the decoder on each of the fifteen words. -/
theorem encodedWordsDecode : Obligations.EncodedWordsDecode := by
  unfold Obligations.EncodedWordsDecode
  decide

/-- Settles O21: outside a run the lock is open, and each write stores one field. -/
theorem configurationWritesStore : Obligations.ConfigurationWritesStore := by
  unfold Obligations.ConfigurationWritesStore
  intro s d hstage
  have stored := written_lockedWrite (Block.running_eq_false hstage)
  refine ⟨?_, ?_, ?_, ?_, ?_, ?_, fun j => ⟨bankSet s.blk.cfg.coef j d, ?_, fun k => bankGet_bankSet _ j k d⟩, ?_, ?_⟩
  all_goals exact congrArg Host.Outcome.next (stored _)

end Sys2Proof.Proofs
end

section
/-! SUPPORT. Bus accesses by selector (spec/40_register_access.md): the indexed reads, the locked offsets (R72), accesses that are
not legal (R73), the reserved and read-only offsets (R99-R101); which operations can set a sticky bit (spec/60_exceptions.md R154),
the fields of the STATUS word (R79), and the `irq` level (spec/10_state.md R44). -/

namespace Sys2Proof

/-! ### Selectors of the indexed word reads (R59, R60) -/

theorem toNat_mkSel_wordRead (off : BitVec 8) : (mkSel false 2#2 off).toNat = 0x200 + off.toNat := by
  have hhigh : (BitVec.ofBool false ++ 2#2).toNat = 2 := rfl
  rw [mkSel, BitVec.toNat_append, hhigh, ← Nat.shiftLeft_add_eq_or_of_lt off.isLt]
  rfl

/-- The word read of entry `j` of the bank at `base`, its selector as a number. -/
theorem decodeBusop_bankRead {base j : Nat} (halign : base % 4 = 0) (h : base + 4 * j < 256) (data : Word) :
    decodeBusop (BitVec.ofNat 11 (0x200 + base + 4 * j)) data = decodeRead (offsetAt base j) := by
  have hsel : BitVec.ofNat 11 (0x200 + base + 4 * j) = mkSel false 2#2 (offsetAt base j) := by
    apply BitVec.eq_of_toNat_eq
    rw [toNat_mkSel_wordRead, toNat_offsetAt h, BitVec.toNat_ofNat]
    omega
  have hoff : (offsetAt base j).toNat % 4 = 0 := by
    rw [toNat_offsetAt h]
    omega
  rw [hsel, decodeBusop_read _ hoff]

theorem decodeBusop_rdCoef (j : Slot) (data : Word) :
    decodeBusop (BitVec.ofNat 11 (0x240 + 4 * j.val)) data = .rdCoef j := by
  obtain ⟨-, hlo, hhi⟩ := offsetAt_bounds (base := 0x40) rfl (by decide) j.isLt
  refine (decodeBusop_bankRead (base := 0x40) rfl (by omega) data).trans ?_
  rw [decodeRead_coef hlo hhi, slotOf_offsetAt rfl (by decide)]

theorem decodeBusop_rdSymmap (n : Fin 2) (data : Word) :
    decodeBusop (BitVec.ofNat 11 (0x2C0 + 4 * n.val)) data = .rdSymmap n := by
  obtain ⟨-, hlo, hhi⟩ := offsetAt_bounds (base := 0xC0) rfl (by decide) n.isLt
  refine (decodeBusop_bankRead (base := 0xC0) rfl (by omega) data).trans ?_
  rw [decodeRead_symmap hlo hhi, mapIndexOf_offsetAt]

/-! ### The locked offsets (R72) -/

theorem lockedOffset_iff {off : BitVec 8} : lockedOffset off = true ↔ off.toNat % 4 = 0 ∧
    (off.toNat = 0x08 ∨ (0x1C ≤ off.toNat ∧ off.toNat ≤ 0x2C) ∨ (0x40 ≤ off.toNat ∧ off.toNat ≤ 0x7C) ∨
      (0xC0 ≤ off.toNat ∧ off.toNat ≤ 0xC4)) := by
  simp [lockedOffset, or_assoc]

/-- Outside the single registers below 0x40, the locked offsets are the banks COEF and SYMMAP. -/
theorem lockedOffset_of_ge {off : BitVec 8} (h : off.toNat % 4 = 0) (hlo : 0x40 ≤ off.toNat) :
    lockedOffset off = decide (off.toNat < 0x80 ∨ (0xC0 ≤ off.toNat ∧ off.toNat < 0xC8)) := by
  rw [Bool.eq_iff_iff, lockedOffset_iff, decide_eq_true_iff]
  omega

/-- A word write is a write to a locked register iff its offset is locked. -/
theorem isLockedWrite_decodeWrite {off : BitVec 8} (data : Word) (h : off.toNat % 4 = 0) :
    (decodeWrite off data).isLockedWrite = lockedOffset off := by
  obtain hhi | ⟨hlo, hhi⟩ | ⟨hlo, hhi⟩ | ⟨hlo, hhi⟩ | ⟨hlo, hhi⟩ | ⟨hlo, hhi⟩ | hlo := offset_ranges off
  · have hoff : offsetAt 0x00 (slotOf off) = off := offsetAt_slotOf rfl (Nat.zero_le _) hhi h
    rw [← hoff]
    generalize slotOf off = k
    fin_cases k <;> rfl
  · rw [decodeWrite_coef data hlo hhi, lockedOffset_of_ge h (by omega)]
    exact (decide_eq_true (by omega)).symm
  · rw [decodeWrite_roPower data hlo hhi, lockedOffset_of_ge h (by omega)]
    exact (decide_eq_false (by omega)).symm
  · rw [decodeWrite_symmap data hlo hhi, lockedOffset_of_ge h (by omega)]
    exact (decide_eq_true (by omega)).symm
  · rw [decodeWrite_rsvdC8 data hlo hhi, lockedOffset_of_ge h (by omega)]
    exact (decide_eq_false (by omega)).symm
  · rw [decodeWrite_rsvdD0 data hlo hhi, lockedOffset_of_ge h (by omega)]
    exact (decide_eq_false (by omega)).symm
  · rw [decodeWrite_rsvdE0 data hlo, lockedOffset_of_ge h (by omega)]
    exact (decide_eq_false (by omega)).symm

end Sys2Proof

namespace Sys2Proof.Machine

/-! ### Accesses by selector -/

/-- An access that is not a word access at a multiple of 4 is a bus error and nothing else (R73). -/
theorem exec_decodeBusop_illegal (s : State) (write : Bool) {size : BitVec 2} {off : BitVec 8} (data : Word)
    (h : size ≠ 2#2 ∨ off.toNat % 4 ≠ 0) : exec (decodeBusop (mkSel write size off) data) s = .next (s.busError off) := by
  obtain rfl | rfl | rfl | rfl : size = 0#2 ∨ size = 1#2 ∨ size = 2#2 ∨ size = 3#2 := by bv_omega
  · rw [decodeBusop_byte]; rfl
  · rw [decodeBusop_halfword]; rfl
  · have hoff : off.toNat % 4 ≠ 0 := h.resolve_left (by decide)
    obtain hodd | hhalf : off.toNat % 2 = 1 ∨ off.toNat % 4 = 2 := by omega
    · rw [decodeBusop_odd _ _ hodd]; rfl
    · rw [decodeBusop_half _ _ hhalf]; rfl
  · rw [decodeBusop_reservedSize]; rfl

/-- The ranges of the three reserved rows (R60). -/
theorem reserved_ranges {off : BitVec 8} (h : 0xC8 ≤ off.toNat) :
    off.toNat < 0xD0 ∨ (0xD0 ≤ off.toNat ∧ off.toNat < 0xE0) ∨ 0xE0 ≤ off.toNat := by
  omega

/-- The reserved offsets read as zero (R100). -/
theorem exec_decodeRead_reserved (s : State) {off : BitVec 8} (h : 0xC8 ≤ off.toNat) :
    exec (decodeRead off) s = .next (s.answer 0#32) := by
  obtain hhi | ⟨hlo, hhi⟩ | hlo := reserved_ranges h
  · rw [decodeRead_rsvdC8 h hhi]; rfl
  · rw [decodeRead_rsvdD0 hlo hhi]; rfl
  · rw [decodeRead_rsvdE0 hlo]; rfl

/-- A write to a reserved offset leaves the block as it is (R101). -/
theorem exec_decodeWrite_reserved (s : State) {off : BitVec 8} (data : Word) (h : 0xC8 ≤ off.toNat) :
    exec (decodeWrite off data) s = .next (s.written s.blk) := by
  obtain hhi | ⟨hlo, hhi⟩ | hlo := reserved_ranges h
  · rw [decodeWrite_rsvdC8 data h hhi]; rfl
  · rw [decodeWrite_rsvdD0 data hlo hhi]; rfl
  · rw [decodeWrite_rsvdE0 data hlo]; rfl

/-- A write to a read-only register or to a reserved offset leaves the block as it is (R99, R101). -/
theorem exec_decodeWrite_readOnly (s : State) {off : BitVec 8} (data : Word) (halign : off.toNat % 4 = 0)
    (h : off.toNat ≤ 0x04 ∨ (0x34 ≤ off.toNat ∧ off.toNat ≤ 0x3C) ∨ (0x80 ≤ off.toNat ∧ off.toNat ≤ 0xBC) ∨
      0xC8 ≤ off.toNat) : exec (decodeWrite off data) s = .next (s.written s.blk) := by
  obtain hhi | ⟨hlo, hhi⟩ | ⟨hlo, hhi⟩ | hrsvd := h
  · rw [decodeWrite_roIdVersion data (offsetIn_iff.2 ⟨halign, Nat.zero_le _, hhi⟩)]; rfl
  · obtain rfl | hcounters : off = 0x34#8 ∨ 0x38 ≤ off.toNat := by bv_omega
    · rfl
    · rw [decodeWrite_roCounters data (offsetIn_iff.2 ⟨halign, hcounters, hhi⟩)]; rfl
  · rw [decodeWrite_roPower data hlo (by omega)]; rfl
  · exact exec_decodeWrite_reserved s data hrsvd

/-! ### The run lock -/

theorem Block.running_of_stage {b : Block} (h : b.stage = .scan ∨ b.stage = .oneshot) : b.running = true := by
  obtain h | h := h <;> simp [running, h, Stage.running]

/-- While running the lock sets WERR and stores nothing (R72). -/
theorem Block.lockedWrite_of_running {b : Block} (h : b.running = true) (f : Regs → Regs) :
    b.lockedWrite f = b.raise .werr := by
  obtain ⟨-, e⟩ | ⟨hr, -⟩ := b.lockedWrite_cases f
  · exact e
  · simp [h] at hr

/-! ### Who can set a sticky bit (R154) -/

section
variable (b : Block) (par : Params) {e : ErrBit}

/-- A push sets no sticky bit but OVF. -/
theorem Block.push_flag_of_ne_ovf (w : Word) (h : e ≠ .ovf) : (b.push par w).flag e = b.flag e := by
  obtain ⟨-, hpush⟩ | ⟨-, hpush⟩ := b.push_cases par w <;> rw [hpush]
  · simp [h.symm]
  · rfl

/-- The evaluation of a window sets no sticky bit but NANSEEN. -/
theorem Block.evaluated_flag_of_ne_nanseen (p : Bank) (c : WindowClass) (h : e ≠ .nanseen) :
    (b.evaluated p c).flag e = b.flag e := by
  rw [flag, evaluated_sticky, ← flag, latch_flag]
  simp [h.symm]

theorem Block.completeScan_flag_of_ne_ovf (k : Nat) (xs : List Word) (c : WindowClass) (h : e ≠ .ovf) :
    (b.completeScan par k xs c).flag e = b.flag e := by
  obtain ⟨-, hscan⟩ | ⟨-, hscan⟩ := b.completeScan_cases par k xs c <;> rw [hscan]
  · exact push_flag_of_ne_ovf _ par _ h
  · rfl

theorem Block.completeOneshot_flag_of_ne_ovf (c : WindowClass) (h : e ≠ .ovf) :
    (b.completeOneshot par c).flag e = b.flag e :=
  push_flag_of_ne_ovf b par _ h

/-- A command sets no sticky bit but CMDERR and CFGERR. -/
theorem flag_of_commandEffect_flag (c : Command) (hcmd : e ≠ .cmderr) (hcfg : e ≠ .cfgerr)
    (h : (commandEffect par c b).flag e = true) : b.flag e = true := by
  obtain ⟨-, hc⟩ | ⟨-, -, hc⟩ | ⟨-, -, hc⟩ | ⟨-, -, hc⟩ | ⟨-, -, hc⟩ | ⟨-, hc⟩ | ⟨-, hc⟩ | ⟨-, hc⟩ :=
    commandEffect_cases par c b <;> rw [hc] at h
  · simpa [hcmd.symm] using h
  · exact h
  · split at h
    · exact h
    · simpa [hcfg.symm] using h
  · split at h
    · exact h
    · simpa [hcfg.symm] using h
  · exact h
  · exact h
  · exact h
  · simp [Block.flag, Block.reset] at h

/-- A sample sets no sticky bit but SERR, OVF and NANSEEN. -/
theorem execWrSample_flag {s t : State} {x : Word} (he : execWrSample x s = .next t) (hserr : e ≠ .serr)
    (hovf : e ≠ .ovf) (hnan : e ≠ .nanseen) : t.blk.flag e = s.blk.flag e := by
  obtain ⟨-, ht⟩ | ⟨-, -, ht⟩ | ⟨c, -, -, ht⟩ | ⟨k, c, -, -, ht⟩ := execWrSample_next he <;> rw [ht]
  · simp [hserr.symm]
  · rfl
  · rw [Block.completeOneshot_flag_of_ne_ovf _ _ _ hovf, Block.evaluated_flag_of_ne_nanseen _ _ _ hnan]
    rfl
  · rw [Block.completeScan_flag_of_ne_ovf _ _ _ _ _ hovf, Block.evaluated_flag_of_ne_nanseen _ _ _ hnan]
    rfl

end

/-- Only a write to a locked register sets WERR. -/
theorem werr_of_exec_werr {i : Instr} {s t : State} (he : exec i s = .next t) (hi : i.isLockedWrite = false)
    (h : t.blk.flag .werr = true) : s.blk.flag .werr = true := by
  obtain ⟨-, ⟨-, -, -, e⟩ | ⟨-, e⟩ | ⟨-, hl, -⟩ | ⟨d, -, e⟩ | ⟨d, -, e⟩ | ⟨d, -, e⟩ | ⟨c, -, e⟩ | ⟨x, -, hx⟩⟩ := exec_inv he
  · rwa [e] at h
  · rwa [e] at h
  · simp [hi] at hl
  · rw [e] at h
    simp only [Block.flag, Block.clearSticky, Block.setSticky_sticky, BitVec.getLsbD_and, Bool.and_eq_true] at h
    exact h.1
  · rwa [e] at h
  · rwa [e] at h
  · rw [e] at h
    exact flag_of_commandEffect_flag _ _ c (by decide) (by decide) h
  · rwa [execWrSample_flag hx (by decide) (by decide) (by decide)] at h

/-! ### The STATUS word (R23, R79), field by field -/

section
variable (b : Block) (par : Params)

theorem Block.status_state : (b.status par).extractLsb' 0 2 = b.stage.code := by
  simp only [status, BitVec.extractLsb'_append_eq_ite]; simp

theorem Block.status_ravail : (b.status par).getLsbD 2 = b.ravail := by
  simp only [status, BitVec.getLsbD_append]; simp

theorem Block.status_rfull : (b.status par).getLsbD 3 = b.rfull par := by
  simp only [status, BitVec.getLsbD_append]; simp

theorem Block.status_notones : (b.status par).getLsbD 4 = b.notones := by
  simp only [status, BitVec.getLsbD_append]; simp

theorem Block.status_sticky : (b.status par).extractLsb' 8 6 = b.sticky := by
  simp only [status, BitVec.extractLsb'_append_eq_ite]; simp

theorem Block.status_rcount : (b.status par).extractLsb' 16 5 = b.rcount := by
  simp only [status, BitVec.extractLsb'_append_eq_ite]; simp

/-- The reserved bits of STATUS are zero. -/
theorem Block.status_reserved : (b.status par).extractLsb' 5 3 = 0#3 ∧ (b.status par).extractLsb' 14 2 = 0#2 ∧
    (b.status par).extractLsb' 21 11 = 0#11 := by
  refine ⟨?_, ?_, ?_⟩ <;> simp only [status, BitVec.extractLsb'_append_eq_ite] <;> simp

end

/-! ### The `irq` level -/

/-- `irq` is high iff some event is pending and enabled. -/
theorem Block.irq_eq_decide (b : Block) : b.irq = decide (b.irqStat &&& b.irqEn ≠ 0#3) := by
  have hbits : ∀ stat en : BitVec 3, ((stat.getLsbD 0 && en.getLsbD 0) || (stat.getLsbD 1 && en.getLsbD 1) ||
      (stat.getLsbD 2 && en.getLsbD 2)) = decide (stat &&& en ≠ 0#3) := by decide
  exact hbits b.irqStat b.irqEn

end Sys2Proof.Machine
end

section
/-! PROOF. The statements about register access (spec/40_register_access.md R72-R101). -/

namespace Sys2Proof.Proofs

open Sys2Proof.Machine

/-- Settles O22: a word write is a locked write iff its offset is locked; while running the lock raises WERR, and no other
instruction sets it. -/
theorem lockedWritesAreRefusedWhileRunning : Obligations.LockedWritesAreRefusedWhileRunning := by
  unfold Obligations.LockedWritesAreRefusedWhileRunning
  intro s off data hstage
  refine ⟨fun hlocked => ?_, fun hfree halign t he => ?_, fun size h => exec_decodeBusop_illegal s true data h⟩
  · obtain ⟨halign, -⟩ := lockedOffset_iff.1 hlocked
    obtain ⟨f, hf⟩ := exec_isLockedWrite ((isLockedWrite_decodeWrite data halign).trans hlocked)
    rw [decodeBusop_write _ halign, hf, Block.lockedWrite_of_running (Block.running_of_stage hstage)]
    rfl
  · rw [decodeBusop_write _ halign] at he
    exact werr_of_exec_werr he ((isLockedWrite_decodeWrite data halign).trans hfree)

/-- Settles O10: the selector's fields are those of an access that is not legal. -/
theorem badAccessIsABusErrorOnly : Obligations.BadAccessIsABusErrorOnly := by
  unfold Obligations.BadAccessIsABusErrorOnly
  intro s sel data h
  have hoff : sel.extractLsb' 0 2 ≠ 0#2 → (selOff sel).toNat % 4 ≠ 0 := by
    rw [ne_eq, ← BitVec.toNat_inj, selOff, BitVec.extractLsb'_toNat, BitVec.extractLsb'_toNat, Nat.shiftRight_zero,
      BitVec.toNat_ofNat]
    omega
  have hillegal : selSize sel ≠ 2#2 ∨ (selOff sel).toNat % 4 ≠ 0 := h.imp_right hoff
  have hbus := exec_decodeBusop_illegal s (selWrite sel) data hillegal
  rwa [mkSel_fields] at hbus

/-- Settles O11: each of the five rows raises the bus error. -/
theorem badAccessRowsComplete : Obligations.BadAccessRowsComplete := by
  unfold Obligations.BadAccessRowsComplete
  exact fun _ _ _ => ⟨rfl, rfl, rfl, rfl, rfl⟩

/-- Settles O13: both reads answer a constant. -/
theorem identityReads : Obligations.IdentityReads := by
  unfold Obligations.IdentityReads
  exact fun _ _ => ⟨rfl, rfl, rfl, rfl⟩

/-- Settles O14: the indexed selectors are those of the banks' offsets, and each read answers its register. -/
theorem configurationReads : Obligations.ConfigurationReads := by
  unfold Obligations.ConfigurationReads
  intro s d
  exact ⟨rfl, rfl, rfl, rfl, rfl, rfl, fun j => decodeBusop_rdCoef j d, fun n => decodeBusop_rdSymmap n d,
    rfl, rfl, rfl, rfl, rfl, rfl, fun _ => rfl, rfl, rfl⟩

/-- Settles O15: an aligned offset from 0xC8 on is one of the reserved rows, which answer zero. -/
theorem writeOnlyAndReservedReadZero : Obligations.WriteOnlyAndReservedReadZero := by
  unfold Obligations.WriteOnlyAndReservedReadZero
  intro s off d
  refine ⟨rfl, rfl, fun halign hrsvd => ?_, rfl, rfl, rfl, rfl, rfl⟩
  rw [decodeBusop_read _ halign]
  exact exec_decodeRead_reserved s hrsvd

/-- Settles O16: the word is the STATUS word, taken apart field by field. -/
theorem statusReadFields : Obligations.StatusReadFields := by
  unfold Obligations.StatusReadFields
  refine ⟨fun _ => rfl, fun s => ⟨s.blk.status s.par, rfl, ?_⟩⟩
  obtain ⟨hlow, hmid, hhigh⟩ := s.blk.status_reserved s.par
  refine ⟨s.blk.status_state s.par, s.blk.status_ravail s.par, s.blk.status_rfull s.par, ?_, hlow,
    s.blk.status_sticky s.par, hmid, ?_, hhigh⟩
  · rw [Block.status_notones]
    simp [Block.notones]
  · rw [Block.status_rcount]
    exact BitVec.toNat_ofNat ..

/-- Settles O17: both reads answer the register and write nothing else. -/
theorem interruptReads : Obligations.InterruptReads := by
  unfold Obligations.InterruptReads
  exact fun _ _ => ⟨rfl, rfl, rfl, rfl⟩

/-- Settles O23: the level is a function of the state after the write. -/
theorem interruptEnableWrite : Obligations.InterruptEnableWrite := by
  unfold Obligations.InterruptEnableWrite
  exact fun s d => ⟨rfl, _, rfl, rfl, Block.irq_eq_decide (s.blk.setIrqEn (irqField d))⟩

/-- Settles O24: the write is one update of the sticky bits. -/
theorem statusWriteClearsStickyBits : Obligations.StatusWriteClearsStickyBits := by
  unfold Obligations.StatusWriteClearsStickyBits
  exact fun _ _ => ⟨rfl, rfl⟩

/-- Settles O25: the write is one update of the event bits. -/
theorem interruptStatusWriteClearsEvents : Obligations.InterruptStatusWriteClearsEvents := by
  unfold Obligations.InterruptStatusWriteClearsEvents
  exact fun _ _ => ⟨rfl, rfl⟩

/-- Settles O26: these offsets are those of the WR_RO and WR_RSVD rows, which leave the block as it is. -/
theorem readOnlyAndReservedWritesDoNothing : Obligations.ReadOnlyAndReservedWritesDoNothing := by
  unfold Obligations.ReadOnlyAndReservedWritesDoNothing
  intro s off j d
  refine ⟨fun halign h => ?_, rfl, rfl, rfl, rfl, rfl, rfl, rfl⟩
  rw [decodeBusop_write _ halign]
  exact exec_decodeWrite_readOnly s d halign h

end Sys2Proof.Proofs
end

section
/-! SUPPORT. The command of a CMD32 word, the outcome of a command in each STATE (spec/41_commands.md R102-R105), and STATE after
every instruction (spec/41_commands.md R114). -/

namespace Sys2Proof

@[simp] theorem Command.command_instr (c : Command) : c.instr.command = some c := by cases c <;> rfl

/-- A CMD32 word performs the command that WR_CMD with the same data performs (R62, R102). -/
theorem command_decode_cmd32 (word : Word) : (decode (.cmd32 word)).command = some (decodeCommand word) :=
  (decodeCommand word).command_instr

end Sys2Proof

namespace Sys2Proof.Machine

/-! ### The configuration check (R104) -/

theorem Regs.mode_ne_invalid_iff (r : Regs) : r.mode ≠ .invalid ↔ r.modeBits ≠ 3#2 := by
  refine ⟨Regs.modeBits_ne_three, ?_⟩
  unfold Regs.mode
  generalize r.modeBits = bits
  revert bits
  decide

theorem cfgOk_oneshot_iff {par : Params} {r : Regs} : cfgOk par false r = true ↔
    r.modeBits ≠ 3#2 ∧ par.winMin ≤ r.winN ∧ r.winN ≤ par.winMax := by
  rw [← Regs.mode_ne_invalid_iff]
  simp [cfgOk, and_assoc]

/-- A SCAN's check is a ONESHOT's and the range of the step. -/
theorem cfgOk_scan_iff {par : Params} {r : Regs} : cfgOk par true r = true ↔
    (r.modeBits ≠ 3#2 ∧ par.winMin ≤ r.winN ∧ r.winN ≤ par.winMax) ∧ quarter r.winN ≤ r.stepS ∧ r.stepS ≤ r.winN := by
  rw [← cfgOk_oneshot_iff]
  simp [cfgOk]

/-! ### The commands' table (R103) -/

theorem allowed_startScan (st : Stage) : allowed .startScan st = true ↔ st = .idle ∨ st = .done := by
  cases st <;> simp [allowed]

theorem allowed_startOneshot (st : Stage) : allowed .startOneshot st = true ↔ st = .idle ∨ st = .done := by
  cases st <;> simp [allowed]

theorem allowed_endStream (st : Stage) : allowed .endStream st = true ↔ st = .scan ∨ st = .oneshot := by
  cases st <;> simp [allowed]

theorem Block.guarded_of_allowed {b : Block} {c : Command} (h : allowed c b.stage = true) (f : Block → Block) :
    b.guarded c f = f b := if_pos h

theorem Block.guarded_of_not_allowed {b : Block} {c : Command} (h : ¬ allowed c b.stage = true) (f : Block → Block) :
    b.guarded c f = b.raise .cmderr := if_neg h

/-- A refused command raises CMDERR, whichever command it is. -/
theorem commandEffect_of_not_allowed {b : Block} {c : Command} (h : ¬ allowed c b.stage = true) (par : Params) :
    commandEffect par c b = b.raise .cmderr := by
  cases c with
  | invalid _ => rfl
  | softReset => exact absurd rfl h
  | _ => rw [commandEffect, Block.guarded_of_not_allowed h]

/-- An instruction whose command is refused in STATE completes with CMDERR and ERR set and nothing else changed. -/
theorem exec_of_not_allowed {i : Instr} {c : Command} {s : State} (hc : i.command = some c)
    (h : ¬ allowed c s.blk.stage = true) : exec i s = .next { s with
      blk := { s.blk with sticky := s.blk.sticky ||| 0b010000#6, irqStat := s.blk.irqStat ||| 0b100#3 }
      resp := .written } := by
  rw [exec_command hc, commandEffect_of_not_allowed h]
  rfl

/-! ### The end of a run (R109) -/

theorem Block.notones_finish (b : Block) : b.finish.notones = !b.run.acc := by
  simp [notones]

/-- Before the first window of a SCAN is complete, and all along a ONESHOT, no window has been classified as a detection. -/
theorem State.Inv.acc_eq_false {s : State} (h : s.Inv)
    (hst : s.blk.stage = .oneshot ∨ s.blk.stage = .scan ∧ s.blk.run.index < s.blk.cfg.winN) : s.blk.run.acc = false := by
  obtain ⟨-, hscan, honeshot⟩ := h.debounce
  obtain ho | ⟨hs, hindex⟩ := hst
  · obtain ⟨hacc, -⟩ := honeshot ho
    exact hacc
  · obtain ⟨hacc, hpos, -⟩ := hscan hs
    obtain ⟨hwcount, -⟩ := h.schedule.1 hs
    rw [windowsCompleted, if_pos hindex] at hwcount
    obtain ⟨hstep, -⟩ := cfgOk_step h.params (h.config.1 hs)
    rw [hwcount] at hpos
    rw [hacc, ← Bool.not_eq_true]
    exact fun hdetected => by have := hpos hdetected; omega

/-! ### STATE after an instruction (R114) -/

/-- STATE after a START of either kind that its STATE allows. -/
theorem Block.stage_start (b : Block) (par : Params) (scan : Bool) (st : Stage) :
    (if cfgOk par scan b.cfg then b.runInit st else b.raise .cfgerr).stage =
      if cfgOk par scan b.cfg = true then st else b.stage := by
  split <;> simp

theorem Block.guarded_stage (b : Block) (c : Command) (f : Block → Block) :
    (b.guarded c f).stage = if allowed c b.stage = true then (f b).stage else b.stage := by
  obtain ⟨h, e⟩ | ⟨h, e⟩ := b.guarded_cases c f <;> simp [e, h]

/-- A sample moves STATE only when it completes the window of a ONESHOT (R137). -/
theorem execWrSample_stage {s t : State} {x : Word} (he : execWrSample x s = .next t) :
    t.blk.stage = if s.blk.stage = .oneshot ∧ s.blk.run.index + 1 = s.blk.cfg.winN then .done else s.blk.stage := by
  obtain ⟨hr, e⟩ | ⟨-, hc, e⟩ | ⟨c, hst, hn, e⟩ | ⟨k, c, hst, -, e⟩ := execWrSample_next he <;> rw [e]
  · have hidle := (Block.stage_of_not_running hr).2
    simp [hidle]
  · have hopen : ¬ (s.blk.stage = .oneshot ∧ s.blk.run.index + 1 = s.blk.cfg.winN) := by
      rintro ⟨hst, hn⟩
      simp [hst, hn, completedWindow] at hc
    simp [hopen]
  · simp [hst, hn, Block.completeOneshot]
  · simp [hst]

/-- Only commands and samples move STATE. -/
theorem exec_stage_of_command_eq_none {i : Instr} {s t : State} (he : exec i s = .next t) (hc : i.command = none)
    (hx : ∀ x, i ≠ .wrSample x) : t.blk.stage = s.blk.stage := by
  obtain ⟨-, ⟨-, -, -, e⟩ | ⟨-, e⟩ | ⟨-, -, f, e⟩ | ⟨d, -, e⟩ | ⟨d, -, e⟩ | ⟨d, -, e⟩ | ⟨c, hcmd, -⟩ | ⟨x, hi, -⟩⟩ :=
    exec_inv he
  · rw [e]
  · simp [e]
  · simp [e]
  · simp [e]
  · simp [e]
  · simp [e]
  · simp [hc] at hcmd
  · exact absurd hi (hx x)

end Sys2Proof.Machine
end

section
/-! PROOF. The statements about the commands (spec/41_commands.md R102-R114). -/

namespace Sys2Proof.Proofs

open Sys2Proof.Machine

/-- Settles O30: in these STATEs the table allows a START, and the statement's conditions are the configuration check. -/
theorem startChecksAndBeginsARun : Obligations.StartChecksAndBeginsARun := by
  unfold Obligations.StartChecksAndBeginsARun
  refine ⟨rfl, rfl, fun s hst => ?_⟩
  have hscan : exec .startScan s = .next (s.written
      (if cfgOk s.par true s.blk.cfg then s.blk.runInit .scan else s.blk.raise .cfgerr)) := by
    rw [exec_command rfl, commandEffect, Block.guarded_of_allowed ((allowed_startScan _).2 hst)]
  have honeshot : exec .startOneshot s = .next (s.written
      (if cfgOk s.par false s.blk.cfg then s.blk.runInit .oneshot else s.blk.raise .cfgerr)) := by
    rw [exec_command rfl, commandEffect, Block.guarded_of_allowed ((allowed_startOneshot _).2 hst)]
  refine ⟨fun hok => ?_, fun hbad => ?_, fun hok => ?_, fun hbad => ?_⟩
  · rw [hscan, if_pos (cfgOk_scan_iff.2 hok)]
    rfl
  · rw [hscan, if_neg (cfgOk_scan_iff.not.2 hbad)]
    rfl
  · rw [honeshot, if_pos (cfgOk_oneshot_iff.2 hok)]
    rfl
  · rw [honeshot, if_neg (cfgOk_oneshot_iff.not.2 hbad)]
    rfl

/-- Settles O31: the run is finished, and NOTONES is NOT acc in DONE. -/
theorem endStreamEntersDone : Obligations.EndStreamEntersDone := by
  unfold Obligations.EndStreamEntersDone
  refine ⟨rfl, fun s hst => ?_⟩
  have hnotones : (s.blk.finish.status s.par).getLsbD 4 = !s.blk.run.acc :=
    (Block.status_notones _ _).trans s.blk.notones_finish
  refine ⟨s.written s.blk.finish, ?_, rfl, hnotones, fun hinv hcase => ?_⟩
  · rw [exec_command rfl, commandEffect, Block.guarded_of_allowed ((allowed_endStream _).2 hst)]
  · have hacc : s.blk.run.acc = false := hinv.acc_eq_false (by tauto)
    rw [hacc] at hnotones
    exact hnotones

/-- Settles O34: by the command that the instruction performs, if any. -/
theorem stageTransitions : Obligations.StageTransitions := by
  unfold Obligations.StageTransitions
  intro i s t he
  cases hc : i.command with
  | none =>
    by_cases hx : ∃ x, i = .wrSample x
    · obtain ⟨x, rfl⟩ := hx
      simp [execWrSample_stage he]
    · simp [exec_stage_of_command_eq_none he hc (not_exists.1 hx), hx]
  | some c =>
    have hx : ¬ ∃ x, i = .wrSample x := by
      rintro ⟨x, rfl⟩
      simp [Instr.command] at hc
    rw [exec_command hc] at he
    cases he
    cases c with
    | startScan => simp [commandEffect, Block.guarded_stage, Block.stage_start, allowed_startScan, ite_and]
    | startOneshot => simp [commandEffect, Block.guarded_stage, Block.stage_start, allowed_startOneshot, ite_and]
    | endStream => simp [commandEffect, Block.guarded_stage, allowed_endStream]
    | abort => rfl
    | softReset => rfl
    | nop => simp [commandEffect, Block.guarded_stage, hx]
    | flush => simp [commandEffect, Block.guarded_stage, hx]
    | invalid word => simp [commandEffect, hx]

/-- Settles O28: both perform the command that the word decodes to. -/
theorem commandWritePerformsItsCommand : Obligations.CommandWritePerformsItsCommand := by
  unfold Obligations.CommandWritePerformsItsCommand
  intro s word
  have hwrite : exec (.wrCmd word) s = .next (s.written (commandEffect s.par (decodeCommand word) s.blk)) :=
    exec_command rfl s
  exact ⟨hwrite.trans (exec_command (command_decode_cmd32 word) s).symm, _, hwrite⟩

/-- Settles O29: the table refuses each of these commands. -/
theorem refusedCommandsSetCmderrOnly : Obligations.RefusedCommandsSetCmderrOnly := by
  unfold Obligations.RefusedCommandsSetCmderrOnly
  refine ⟨fun word => (decode_cmd32_eq_cmdInvalid_iff word).2,
    fun s => ⟨fun hst => ⟨?_, ?_⟩, fun hst => ?_, fun word => ?_⟩⟩
  · exact exec_of_not_allowed rfl (by rw [allowed_startScan]; obtain h | h := hst <;> simp [h])
  · exact exec_of_not_allowed rfl (by rw [allowed_startOneshot]; obtain h | h := hst <;> simp [h])
  · exact exec_of_not_allowed rfl (by rw [allowed_endStream]; obtain h | h := hst <;> simp [h])
  · exact exec_of_not_allowed (c := .invalid word) rfl Bool.false_ne_true

/-- Settles O32: the table allows ABORT in every STATE, and in IDLE with no samples kept its effect is the identity. -/
theorem abortEntersIdle : Obligations.AbortEntersIdle := by
  unfold Obligations.AbortEntersIdle
  refine ⟨rfl, fun s => ⟨_, exec_command rfl s, rfl, rfl, ?_⟩⟩
  rw [Block.status_notones]
  rfl

/-- Settles O33: the table allows both in every STATE. -/
theorem nopAndFlush : Obligations.NopAndFlush := by
  unfold Obligations.NopAndFlush
  exact ⟨rfl, rfl, fun s => ⟨exec_command (c := .nop) rfl s, exec_command (c := .flush) rfl s⟩⟩

end Sys2Proof.Proofs
end

section
/-! SUPPORT. The recurrence behind a power (spec/42_sample_path.md R121), the strongest slot of a range (R126), what each mode
detects (R125-R131), and the fields of a result word (R66, R133). -/

namespace Sys2Proof.Machine

/-! ### The resonator's recurrence (R121) -/

/-- R121's values: `resonance c xs (n + 2)` is s[n], from the zeros s[-2] and s[-1]. A sample past the end counts as zero. -/
def resonance (c : Word) (xs : List Word) : Nat → Word
  | 0 => 0#32
  | 1 => 0#32
  | n + 2 => F32.sub (F32.add (xs.getD n 0#32) (F32.mul c (resonance c xs (n + 1)))) (resonance c xs n)

theorem resonance_succ_succ (c : Word) {xs : List Word} {n : Nat} (h : n < xs.length) : resonance c xs (n + 2) =
    F32.sub (F32.add xs[n] (F32.mul c (resonance c xs (n + 1)))) (resonance c xs n) := by
  rw [resonance, List.getD_eq_getElem _ _ h]

/-- After `n` samples the resonator holds the last two values of the recurrence. -/
theorem foldl_take_eq_resonance (c : Word) (xs : List Word) {n : Nat} (h : n ≤ xs.length) :
    (xs.take n).foldl (Resonator.next c) .zero = ⟨resonance c xs (n + 1), resonance c xs n⟩ := by
  induction n with
  | zero => rfl
  | succ n ih =>
    rw [List.take_succ_eq_append_getElem h, resonator_append, ih (Nat.le_of_lt h), resonance_succ_succ c h]
    rfl

theorem goertzel_eq_energy_resonance (c : Word) (xs : List Word) : goertzel c xs =
    Resonator.energy c ⟨resonance c xs (xs.length + 1), resonance c xs xs.length⟩ := by
  rw [goertzel, ← foldl_take_eq_resonance c xs le_rfl, List.take_length]

/-! ### The order of powers (R11) -/

/-- The place of a pattern in the order of comparisons: a NaN is below every number. -/
def F32.rank (w : Word) : WithBot ℤ := if F32.isNaN w = true then ⊥ else F32.scaled w

theorem F32.rank_of_isNaN {w : Word} (h : F32.isNaN w = true) : F32.rank w = ⊥ := if_pos h

theorem F32.rank_of_not_isNaN {w : Word} (h : F32.isNaN w = false) : F32.rank w = F32.scaled w := if_neg (by simp [h])

/-- Against a number, a comparison is one of ranks, whatever the other operand is. -/
theorem F32.gt_iff_rank_lt {a b : Word} (hb : F32.isNaN b = false) : F32.gt a b = true ↔ F32.rank b < F32.rank a := by
  cases ha : F32.isNaN a with
  | true => simp [F32.gt, ha, F32.rank_of_isNaN ha]
  | false => rw [F32.gt_iff_scaled ha hb, F32.rank_of_not_isNaN ha, F32.rank_of_not_isNaN hb, WithBot.coe_lt_coe]

theorem F32.ge_iff_rank_le {a b : Word} (hb : F32.isNaN b = false) : F32.ge a b = true ↔ F32.rank b ≤ F32.rank a := by
  cases ha : F32.isNaN a with
  | true => simp [F32.ge, ha, F32.rank_of_isNaN ha, F32.rank_of_not_isNaN hb]
  | false => rw [F32.ge_iff_scaled ha hb, F32.rank_of_not_isNaN ha, F32.rank_of_not_isNaN hb, WithBot.coe_le_coe]

theorem F32.gt_eq_false_iff_rank_le {a b : Word} (hb : F32.isNaN b = false) :
    F32.gt a b = false ↔ F32.rank a ≤ F32.rank b := by
  rw [← Bool.not_eq_true, F32.gt_iff_rank_lt hb, not_lt]

theorem F32.ge_eq_false_iff_rank_lt {a b : Word} (hb : F32.isNaN b = false) :
    F32.ge a b = false ↔ F32.rank a < F32.rank b := by
  rw [← Bool.not_eq_true, F32.ge_iff_rank_le hb, not_le]

theorem F32.not_isNaN_of_gt {a b : Word} (h : F32.gt a b = true) : F32.isNaN a = false := by
  simp only [F32.gt, Bool.and_eq_true, Bool.not_eq_true'] at h
  exact h.1.1

@[simp] theorem F32.gt_self (a : Word) : F32.gt a a = false := by simp [F32.gt]

theorem F32.gt_asymm {a b : Word} (h : F32.gt a b = true) : F32.gt b a = false := by
  simp only [F32.gt, Bool.and_eq_true, decide_eq_true_eq] at h
  obtain ⟨-, hlt⟩ := h
  simp [F32.gt, hlt.le]

/-! ### argmax (R126) -/

section
variable {p : Bank} {best : Slot}

/-- No power is greater than a NaN, so a NaN first slot stays the best. -/
theorem argmaxFrom_of_isNaN (h : F32.isNaN (bankGet p best) = true) (js : List Slot) : argmaxFrom p best js = best := by
  induction js with
  | nil => rfl
  | cons j js ih => simpa [argmaxFrom, F32.gt_eq_false_of_isNaN (.inr h)] using ih

theorem argmaxFrom_mem (p : Bank) (best : Slot) (js : List Slot) : argmaxFrom p best js ∈ best :: js := by
  induction js generalizing best with
  | nil => exact List.mem_singleton_self best
  | cons j js ih =>
    rw [argmaxFrom]
    split
    · exact List.mem_cons_of_mem _ (ih j)
    · obtain hbest | hrest := List.mem_cons.1 (ih best)
      · simp [hbest]
      · exact List.mem_cons_of_mem _ (List.mem_cons_of_mem _ hrest)

/-- From a number on, the loop ends at a number that no slot it looked at exceeds. -/
theorem argmaxFrom_isMax (h : F32.isNaN (bankGet p best) = false) (js : List Slot) :
    F32.isNaN (bankGet p (argmaxFrom p best js)) = false ∧
    ∀ j ∈ best :: js, F32.rank (bankGet p j) ≤ F32.rank (bankGet p (argmaxFrom p best js)) := by
  induction js generalizing best with
  | nil => simpa [argmaxFrom] using h
  | cons j js ih =>
    rw [argmaxFrom]
    split
    · next hgt =>
      have hj := F32.not_isNaN_of_gt hgt
      obtain ⟨hnum, hmax⟩ := ih hj
      have hbest := ((F32.gt_iff_rank_lt h).1 hgt).le.trans (hmax j List.mem_cons_self)
      exact ⟨hnum, List.forall_mem_cons.2 ⟨hbest, hmax⟩⟩
    · next hgt =>
      obtain ⟨hnum, hmax⟩ := ih h
      obtain ⟨hbest, hrest⟩ := List.forall_mem_cons.1 hmax
      have hj := ((F32.gt_eq_false_iff_rank_le h).1 (by simpa using hgt)).trans hbest
      exact ⟨hnum, List.forall_mem_cons.2 ⟨hbest, List.forall_mem_cons.2 ⟨hj, hrest⟩⟩⟩

/-- Looking at the slots in order, the loop replaces the best only by a greater one, so every slot before the last best is
lower. -/
theorem argmaxFrom_isLowest (h : F32.isNaN (bankGet p best) = false) {js : List Slot}
    (hsorted : (best :: js).Pairwise (· < ·)) : ∀ j ∈ best :: js, j < argmaxFrom p best js →
      F32.rank (bankGet p j) < F32.rank (bankGet p (argmaxFrom p best js)) := by
  induction js generalizing best with
  | nil => simp [argmaxFrom]
  | cons j js ih =>
    obtain ⟨hlow, htail⟩ := List.pairwise_cons.1 hsorted
    obtain ⟨hjlow, hjs⟩ := List.pairwise_cons.1 htail
    rw [argmaxFrom]
    split
    · next hgt =>
      have hj := F32.not_isNaN_of_gt hgt
      have hbest := ((F32.gt_iff_rank_lt h).1 hgt).trans_le ((argmaxFrom_isMax hj js).2 j List.mem_cons_self)
      exact List.forall_mem_cons.2 ⟨fun _ => hbest, ih hj htail⟩
    · next hgt =>
      have hle := (F32.gt_eq_false_iff_rank_le h).1 (by simpa using hgt)
      have hlower := ih h (List.pairwise_cons.2 ⟨fun i hi => hlow i (List.mem_cons_of_mem _ hi), hjs⟩)
      obtain ⟨hbest, hrest⟩ := List.forall_mem_cons.1 hlower
      refine List.forall_mem_cons.2 ⟨hbest, List.forall_mem_cons.2 ⟨fun hlt => ?_, hrest⟩⟩
      exact hle.trans_lt (hbest ((hlow j List.mem_cons_self).trans hlt))

end

/-- The slots that `argmax` looks at are those of the range, in order. -/
theorem mem_argmax_slots {lo hi j : Slot} (h : lo ≤ hi) :
    j ∈ lo :: slots.filter (fun j => lo < j && j ≤ hi) ↔ lo ≤ j ∧ j ≤ hi := by
  have hj : j ∈ slots := by revert j; decide
  simp only [List.mem_cons, List.mem_filter, hj, true_and, Bool.and_eq_true, decide_eq_true_eq, Fin.ext_iff,
    Fin.lt_def, Fin.le_def] at h ⊢
  omega

theorem argmax_slots_pairwise (lo hi : Slot) :
    (lo :: slots.filter (fun j => lo < j && j ≤ hi)).Pairwise (· < ·) := by
  have hslots : slots.Pairwise (· < ·) := by decide
  refine List.pairwise_cons.2 ⟨fun j hj => ?_, hslots.filter _⟩
  simp only [List.mem_filter, Bool.and_eq_true, decide_eq_true_eq] at hj
  obtain ⟨-, hlt, -⟩ := hj
  exact hlt

theorem argmax_mem (p : Bank) {lo hi : Slot} (h : lo ≤ hi) : lo ≤ argmax p lo hi ∧ argmax p lo hi ≤ hi :=
  (mem_argmax_slots h).1 (argmaxFrom_mem p lo _)

/-! ### Classification by MODE (R125) -/

theorem Regs.mode_eq_dual {r : Regs} (h : r.modeBits = 0#2) : r.mode = .dual := by simp [mode, h]
theorem Regs.mode_eq_bin {r : Regs} (h : r.modeBits = 1#2) : r.mode = .bin := by simp [mode, h]
theorem Regs.mode_eq_tone {r : Regs} (h : r.modeBits = 2#2) : r.mode = .tone := by simp [mode, h]

section
variable {r : Regs} (p : Bank)

theorem classify_of_dual (h : r.mode = .dual) : classify r p = some (classifyDual r p) := by simp [classify, h]
theorem classify_of_bin (h : r.mode = .bin) : classify r p = some (classifyBin r p) := by simp [classify, h]
theorem classify_of_tone (h : r.mode = .tone) : classify r p = some (classifyTone r p) := by simp [classify, h]

end

/-- The gate of BIN by CTRL.GATE (R129, R130). -/
theorem binGate_eq_ite (r : Regs) (win lose : Word) : binGate r win lose =
    if r.ctrl.getLsbD 2 = false then F32.gt win r.thresh else F32.ge win (F32.mul r.ratio lose) := by
  rw [binGate, Regs.gateMargin]
  cases r.ctrl.getLsbD 2 <;> rfl

/-- The two comparisons of BIN exclude each other, so each can be tested with its gate. -/
theorem classifyBin_eq_ite (r : Regs) (p : Bank) : classifyBin r p =
    if F32.gt (bankGet p 9) (bankGet p 8) = true ∧ binGate r (bankGet p 9) (bankGet p 8) = true then .detect 1#4 0#2 0#2
    else if F32.gt (bankGet p 8) (bankGet p 9) = true ∧ binGate r (bankGet p 8) (bankGet p 9) = true then
      .detect 0#4 0#2 0#2
    else .none := by
  unfold classifyBin
  by_cases hgt : F32.gt (bankGet p 9) (bankGet p 8) = true
  · simp [hgt, F32.gt_asymm hgt]
  · simp only [hgt, Bool.false_eq_true, if_false, false_and, ite_and]

/-- The tone number that TONE reports is CTRL.TONE_SEL (R131). -/
theorem ofNat_toneSel (r : Regs) : BitVec.ofNat 4 r.toneSel.val = r.ctrl.extractLsb' 4 4 :=
  (BitVec.ofNat_toNat 4 _).trans (BitVec.setWidth_eq _)

section
variable {r : Regs} {p : Bank} {v : BitVec 4} {l h : BitVec 2}

/-- A detection of DUAL comes from the strongest low and high slots, both above the threshold (R127). -/
theorem classifyDual_eq_detect (hd : classifyDual r p = .detect v l h) :
    l = BitVec.ofNat 2 (argmax p 0 3).val ∧ h = BitVec.ofNat 2 ((argmax p 4 7).val - 4) ∧
    F32.gt (bankGet p (argmax p 0 3)) r.thresh = true ∧ F32.gt (bankGet p (argmax p 4 7)) r.thresh = true := by
  simp only [classifyDual] at hd
  split at hd
  · next habove =>
    simp only [WindowClass.detect.injEq] at hd
    obtain ⟨-, rfl, rfl⟩ := hd
    exact ⟨rfl, rfl, Bool.and_eq_true_iff.1 habove⟩
  · cases hd

/-- A detection of BIN is of the greater of the two powers, through the gate (R128). -/
theorem classifyBin_eq_detect (hd : classifyBin r p = .detect v l h) :
    (v = 1#4 ∧ F32.gt (bankGet p 9) (bankGet p 8) = true ∧ binGate r (bankGet p 9) (bankGet p 8) = true) ∨
    (v = 0#4 ∧ F32.gt (bankGet p 8) (bankGet p 9) = true ∧ binGate r (bankGet p 8) (bankGet p 9) = true) := by
  rw [classifyBin_eq_ite] at hd
  split at hd
  · next hwin =>
    cases hd
    exact .inl ⟨rfl, hwin⟩
  · split at hd
    · next hwin =>
      cases hd
      exact .inr ⟨rfl, hwin⟩
    · cases hd

theorem classifyTone_eq_detect (hd : classifyTone r p = .detect v l h) :
    F32.gt (bankGet p r.toneSel) r.thresh = true := by
  unfold classifyTone at hd
  split at hd
  · assumption
  · cases hd

/-- Whatever the mode, some power is greater than the threshold or than another power. -/
theorem exists_gt_of_classify_eq_detect (hc : classify r p = some (.detect v l h)) :
    ∃ (j : Slot) (w : Word), F32.gt (bankGet p j) w = true := by
  cases hm : r.mode with
  | dual =>
    rw [classify_of_dual p hm, Option.some.injEq] at hc
    obtain ⟨-, -, hgt, -⟩ := classifyDual_eq_detect hc
    exact ⟨_, _, hgt⟩
  | bin =>
    rw [classify_of_bin p hm, Option.some.injEq] at hc
    obtain ⟨-, hgt, -⟩ | ⟨-, hgt, -⟩ := classifyBin_eq_detect hc <;> exact ⟨_, _, hgt⟩
  | tone =>
    rw [classify_of_tone p hm, Option.some.injEq] at hc
    exact ⟨_, _, classifyTone_eq_detect hc⟩
  | invalid => simp [classify, hm] at hc

end

/-! ### The result word (R66) -/

section
variable (r : Regs) (k : Nat)

theorem resultWord_kind (c : WindowClass) : (resultWord r k c).extractLsb' 2 2 = r.modeBits := by
  obtain ⟨h, l, v, d, e⟩ := resultWord_eq r k c
  rw [e]; simp only [BitVec.extractLsb'_append_eq_ite]; simp

theorem resultWord_zeros (c : WindowClass) : (resultWord r k c).extractLsb' 12 4 = 0#4 := by
  obtain ⟨h, l, v, d, e⟩ := resultWord_eq r k c
  rw [e]; simp only [BitVec.extractLsb'_append_eq_ite]; simp

theorem resultWord_valid (c : WindowClass) : (resultWord r k c).getLsbD 0 = true := by
  obtain ⟨h, l, v, d, e⟩ := resultWord_eq r k c
  rw [e]; simp only [BitVec.getLsbD_append]; simp

theorem resultWord_widx (c : WindowClass) : ((resultWord r k c).extractLsb' 16 16).toNat = k % 2 ^ 16 := by
  obtain ⟨h, l, v, d, e⟩ := resultWord_eq r k c
  rw [e]; simp only [BitVec.extractLsb'_append_eq_ite]; simp

theorem resultWord_detect_fields (v : BitVec 4) (l h : BitVec 2) :
    (resultWord r k (.detect v l h)).getLsbD 1 = true ∧ (resultWord r k (.detect v l h)).extractLsb' 4 4 = v ∧
    (resultWord r k (.detect v l h)).extractLsb' 8 2 = l ∧ (resultWord r k (.detect v l h)).extractLsb' 10 2 = h := by
  refine ⟨?_, ?_, ?_, ?_⟩ <;> rw [resultWord]
  · simp only [BitVec.getLsbD_append]; simp
  all_goals simp only [BitVec.extractLsb'_append_eq_ite]; simp

theorem resultWord_none_fields :
    (resultWord r k .none).getLsbD 1 = false ∧ (resultWord r k .none).extractLsb' 4 8 = 0#8 := by
  constructor <;> rw [resultWord]
  · simp only [BitVec.getLsbD_append]; simp
  · simp only [BitVec.extractLsb'_append_eq_ite]; simp

end

end Sys2Proof.Machine
end

section
/-! PROOF. The statements about powers, classification and result words (spec/42_sample_path.md R121-R133, R142). -/

namespace Sys2Proof.Proofs

open Sys2Proof.Machine

/-- Settles O38: the resonator after n samples holds s[n-1] and s[n-2]. -/
theorem resonatorPowerRecurrence : Obligations.ResonatorPowerRecurrence := by
  unfold Obligations.ResonatorPowerRecurrence
  exact fun c xs => ⟨resonance c xs, rfl, rfl, fun _ h => resonance_succ_succ c h, goertzel_eq_energy_resonance c xs⟩

/-- Settles O39: by what the loop keeps of the slots it has looked at, which are those of the range in order. -/
theorem argmaxIsTheLowestStrongestSlot : Obligations.ArgmaxIsTheLowestStrongestSlot := by
  unfold Obligations.ArgmaxIsTheLowestStrongestSlot
  intro p lo hi hrange
  obtain ⟨hlo, hhi⟩ := argmax_mem p hrange
  refine ⟨hlo, hhi, fun hnan => argmaxFrom_of_isNaN hnan _, fun hnum => ?_⟩
  obtain ⟨hmaxnum, hmax⟩ := argmaxFrom_isMax hnum (slots.filter fun j => lo < j && j ≤ hi)
  refine ⟨hmaxnum, fun j hj hj' => ?_, fun j hj hlt => ?_⟩
  · exact (F32.gt_eq_false_iff_rank_le hmaxnum).2 (hmax j ((mem_argmax_slots hrange).2 ⟨hj, hj'⟩))
  · have hmem := (mem_argmax_slots hrange).2 ⟨hj, hlt.le.trans hhi⟩
    exact (F32.ge_eq_false_iff_rank_lt hmaxnum).2 (argmaxFrom_isLowest hnum (argmax_slots_pairwise lo hi) j hmem hlt)

/-- Settles O40: by the classifier of each mode; BIN's two comparisons exclude each other. -/
theorem classificationByMode : Obligations.ClassificationByMode := by
  unfold Obligations.ClassificationByMode
  refine fun r p => ⟨fun hm => ?_, fun hm => ?_, fun hm => ?_⟩
  · rw [classify_of_dual p (Regs.mode_eq_dual hm), classifyDual]
    simp only [Bool.and_eq_true, apply_ite some]
  · rw [classify_of_bin p (Regs.mode_eq_bin hm), classifyBin_eq_ite]
    simp only [binGate_eq_ite, apply_ite some]
  · rw [classify_of_tone p (Regs.mode_eq_tone hm), classifyTone, ofNat_toneSel, apply_ite some]
    rfl

/-- Settles O41: every detection was let through by a strict comparison, which a NaN fails. -/
theorem thresholdIsAlwaysReject : Obligations.ThresholdIsAlwaysReject := by
  unfold Obligations.ThresholdIsAlwaysReject
  refine ⟨fun r p v l h hc => ⟨fun hm => ?_, fun hm hgate => ?_, fun hm => ?_⟩, F32.gt_self, fun r p c hnan hc => ?_⟩
  · rw [classify_of_dual p hm, Option.some.injEq] at hc
    obtain ⟨rfl, rfl, hlow, hhigh⟩ := classifyDual_eq_detect hc
    obtain ⟨-, hl⟩ := argmax_mem p (lo := 0) (hi := 3) (by decide)
    obtain ⟨hh4, hh7⟩ := argmax_mem p (lo := 4) (hi := 7) (by decide)
    refine ⟨_, _, hl, hh4, hh7, ?_, ?_, hlow, hhigh⟩ <;> rw [BitVec.toNat_ofNat] <;>
      simp only [Fin.le_def] at hl hh4 hh7 <;> omega
  · rw [classify_of_bin p hm, Option.some.injEq] at hc
    obtain ⟨rfl, -, hwin⟩ | ⟨rfl, -, hwin⟩ := classifyBin_eq_detect hc
    · simpa [binGate, hgate] using hwin
    · simpa [binGate, hgate] using hwin
  · rw [classify_of_tone p hm, Option.some.injEq] at hc
    exact classifyTone_eq_detect hc
  · cases c with
    | none => rfl
    | detect v l h =>
      obtain ⟨j, w, hgt⟩ := exists_gt_of_classify_eq_detect hc
      simp [F32.gt_eq_false_of_isNaN (.inl (hnan j))] at hgt

/-- Settles O42: the word is its fields put side by side. -/
theorem resultWordFields : Obligations.ResultWordFields := by
  unfold Obligations.ResultWordFields
  intro r k v l h
  obtain ⟨hdet, hvalue, hlidx, hhidx⟩ := resultWord_detect_fields r k v l h
  obtain ⟨hnone, hzero⟩ := resultWord_none_fields r k
  exact ⟨resultWord_valid r k _, hdet, resultWord_kind r k _, hvalue, hlidx, hhidx, resultWord_zeros r k _,
    resultWord_widx r k _, resultWord_valid r k _, hnone, resultWord_kind r k _, hzero, resultWord_zeros r k _,
    resultWord_widx r k _⟩

end Sys2Proof.Proofs
end

section
/-! SUPPORT. The window schedule as equations (spec/42_sample_path.md R119, R120, R140), what a WR_SAMPLE does in each case, and
how the FIFO and the counters move (R115-R139). -/

namespace Sys2Proof.Machine

/-! ### The window schedule (R120) -/

theorem completedWindow_scan_iff {n s i k : Nat} (hs : 1 ≤ s) (hn : 1 ≤ n) :
    completedWindow .scan n s i = some k ↔ i = k * s + n - 1 := by
  constructor
  · intro h
    obtain ⟨hle, hmod, rfl⟩ := completedWindow_scan h
    rw [Nat.div_mul_cancel (Nat.dvd_of_mod_eq_zero hmod)]
    omega
  · rintro rfl
    have hpos : k * s + n - 1 + 1 - n = k * s := by omega
    simp only [completedWindow, hpos, Nat.mul_mod_left, Nat.mul_div_cancel k hs]
    exact if_pos ⟨by omega, trivial⟩

theorem completedWindow_oneshot_iff {n s i k : Nat} (hn : 1 ≤ n) :
    completedWindow .oneshot n s i = some k ↔ k = 0 ∧ i = n - 1 := by
  constructor
  · intro h
    obtain ⟨hlast, rfl⟩ := completedWindow_oneshot h
    exact ⟨rfl, by omega⟩
  · rintro ⟨rfl, rfl⟩
    exact if_pos (by omega)

/-- In a run, the sample at hand completes no window iff it is the last of none. -/
theorem completedWindow_eq_none_iff {b : Block} (hr : b.running = true) :
    completedWindow b.stage b.cfg.winN b.cfg.stepS b.run.index = none ↔
      ¬ ((b.stage = .scan ∧ b.cfg.winN ≤ b.run.index + 1 ∧ (b.run.index + 1 - b.cfg.winN) % b.cfg.stepS = 0) ∨
        (b.stage = .oneshot ∧ b.run.index + 1 = b.cfg.winN)) := by
  cases hst : b.stage with
  | idle => simp [Block.running, hst, Stage.running] at hr
  | done => simp [Block.running, hst, Stage.running] at hr
  | scan => simp [completedWindow]
  | oneshot => simp [completedWindow]

/-- R104 bounds the number of windows open at a time (R140). -/
theorem ceilDiv_le_four {n s : Nat} (hs : 1 ≤ s) (hq : quarter n ≤ s) : (n + s - 1) / s ≤ 4 := by
  rw [quarter] at hq
  exact Nat.le_of_lt_succ ((Nat.div_lt_iff_lt_mul hs).2 (by omega))

/-- A window whose end lies after sample `i` is not yet counted. -/
theorem windowsCompleted_le {n s i k : Nat} (hs : 1 ≤ s) (hopen : i < k * s + n) : windowsCompleted n s i ≤ k := by
  unfold windowsCompleted
  split
  · exact Nat.zero_le k
  · exact (Nat.div_lt_iff_lt_mul hs).2 (by omega)

/-- A window begun before sample `w * s + m`, where fewer than `n` samples lie past `w * s`, is one of the `ceil(n/s)` from `w`
on. -/
theorem lt_add_ceilDiv {n s w m k : Nat} (hs : 1 ≤ s) (hm : m < n) (hwk : w ≤ k) (hbegun : k * s < w * s + m) :
    k < w + (n + s - 1) / s := by
  obtain ⟨d, rfl⟩ := Nat.exists_eq_add_of_le hwk
  rw [Nat.add_mul] at hbegun
  have hd : d + 1 ≤ (n + s - 1) / s := (Nat.le_div_iff_mul_le hs).2 (by rw [Nat.succ_mul]; omega)
  omega

/-! ### WR_SAMPLE, case by case -/

section
variable {s : State} (x : Word)

theorem exec_wrSample_of_not_running (h : s.blk.running = false) :
    exec (.wrSample x) s = .next (s.written (s.blk.raise .serr)) := by
  obtain ⟨-, e⟩ | ⟨hr, -⟩ | ⟨k, hr, -⟩ | ⟨k, c, hr, -⟩ := execWrSample_cases x s
  · exact e
  all_goals simp [h] at hr

theorem exec_wrSample_of_open (hr : s.blk.running = true)
    (hk : completedWindow s.blk.stage s.blk.cfg.winN s.blk.cfg.stepS s.blk.run.index = none) :
    exec (.wrSample x) s = .next (s.written (s.blk.setRun (s.blk.run.absorb x))) := by
  obtain ⟨hr', -⟩ | ⟨-, -, e⟩ | ⟨k, -, hk', -⟩ | ⟨k, c, -, hk', -⟩ := execWrSample_cases x s
  · simp [hr] at hr'
  · exact e
  all_goals simp [hk] at hk'

/-- A sample that completes a window whose powers have a class. -/
theorem exec_wrSample_of_completes {k : Nat} {c : WindowClass} (hr : s.blk.running = true)
    (hk : completedWindow s.blk.stage s.blk.cfg.winN s.blk.cfg.stepS s.blk.run.index = some k)
    (hc : classify s.blk.cfg (powers s.blk.cfg.coef (s.blk.windowWith x)) = some c) :
    exec (.wrSample x) s = .next (s.written (((s.blk.setRun (s.blk.run.absorb x)).evaluated
      (powers s.blk.cfg.coef (s.blk.windowWith x)) c).complete s.par k (s.blk.windowWith x) c)) := by
  obtain ⟨hr', -⟩ | ⟨-, hk', -⟩ | ⟨k', -, -, hc', -⟩ | ⟨k', c', -, hk', hc', e⟩ := execWrSample_cases x s
  · simp [hr] at hr'
  · simp [hk] at hk'
  · simp [hc] at hc'
  · rw [hk, Option.some.injEq] at hk'
    rw [hc, Option.some.injEq] at hc'
    subst hk' hc'
    exact e

theorem exec_wrSample_scan {k : Nat} {c : WindowClass} (hst : s.blk.stage = .scan)
    (hk : completedWindow .scan s.blk.cfg.winN s.blk.cfg.stepS s.blk.run.index = some k)
    (hc : classify s.blk.cfg (powers s.blk.cfg.coef (s.blk.windowWith x)) = some c) :
    exec (.wrSample x) s = .next (s.written
      (s.blk.scanned s.par k x (powers s.blk.cfg.coef (s.blk.windowWith x)) c)) := by
  rw [exec_wrSample_of_completes x (Block.running_of_stage (.inl hst)) (hst ▸ hk) hc]
  simp [Block.complete, hst, Block.scanned]

theorem exec_wrSample_oneshot {c : WindowClass} (hst : s.blk.stage = .oneshot)
    (hlast : s.blk.run.index + 1 = s.blk.cfg.winN)
    (hc : classify s.blk.cfg (powers s.blk.cfg.coef (s.blk.windowWith x)) = some c) :
    exec (.wrSample x) s = .next (s.written (((s.blk.setRun (s.blk.run.absorb x)).evaluated
      (powers s.blk.cfg.coef (s.blk.windowWith x)) c).completeOneshot s.par c)) := by
  have hk : completedWindow s.blk.stage s.blk.cfg.winN s.blk.cfg.stepS s.blk.run.index = some 0 := by
    rw [hst]
    exact if_pos hlast
  rw [exec_wrSample_of_completes x (Block.running_of_stage (.inr hst)) hk hc]
  simp [Block.complete, hst]

end

/-! ### The block after a completed window -/

section
variable (b : Block) (par : Params) (p : Bank)

/-- The sticky bits after the powers `p` are latched (R123). -/
def Block.latchedSticky : BitVec 6 := if ∃ j, F32.isNaN (bankGet p j) = true then b.sticky ||| 0b100000#6 else b.sticky

theorem Block.latch_eq : b.latch p = { b with power := p, sticky := b.latchedSticky p } := by
  obtain ⟨hnan, e⟩ | ⟨hnum, e⟩ := b.latch_cases p <;> rw [e, latchedSticky]
  · rw [if_pos hnan]; rfl
  · rw [if_neg (by simp [hnum])]; rfl

theorem Block.flag_ovf_latchedSticky : (b.latchedSticky p).getLsbD 0 = b.flag .ovf := by
  unfold latchedSticky
  split
  · simp [flag, ErrBit.place]
  · rfl

theorem Block.push_of_full {w : Word} (h : b.fifo.length = par.rfifoDepth) : b.push par w = b.raise .ovf := if_pos h

theorem Block.push_of_room {w : Word} (h : b.fifo.length ≠ par.rfifoDepth) :
    b.push par w = (b.setFifo (b.fifo ++ [w])).event .res := if_neg h

theorem Block.evaluated_eq (c : WindowClass) : b.evaluated p c = { b with
    power := p, sticky := b.latchedSticky p, run := ({ b.run with wcount := b.run.wcount + 1 } : Run).account c } := by
  rw [evaluated, latch_eq]
  rfl

/-- A SCAN window that detects nothing sets the gap (R134). -/
theorem Block.scanned_none (k : Nat) (x : Word) : b.scanned par k x p .none = { b with
    power := p, sticky := b.latchedSticky p,
    run := { b.run with
      index := b.run.index + 1, samples := (b.windowWith x).drop b.cfg.stepS, wcount := b.run.wcount + 1,
      dbGap := true } } := by
  rw [scanned, evaluated_eq]
  rfl

/-- The block after window `k` of a SCAN has detected VALUE `v`, but for the result word (R132, R134). -/
def Block.detected (k : Nat) (x : Word) (v : BitVec 4) : Block := { b with
  power := p, sticky := b.latchedSticky p,
  run := { b.run with
    index := b.run.index + 1, samples := (b.windowWith x).drop b.cfg.stepS, wcount := b.run.wcount + 1,
    dbValid := true, dbLast := v, dbPos := k * b.cfg.stepS, dbGap := false, acc := true } }

/-- A SCAN window that detects is the last detection, and its word is pushed unless debounce suppresses it (R134, R136). -/
theorem Block.scanned_detect (k : Nat) (x : Word) (v : BitVec 4) (l h : BitVec 2) :
    b.scanned par k x p (.detect v l h) =
      if suppressed b.cfg b.run (k * b.cfg.stepS) v = true then b.detected p k x v
      else (b.detected p k x v).push par (resultWord b.cfg k (.detect v l h)) := by
  rw [scanned, evaluated_eq]
  cases hs : suppressed b.cfg b.run (k * b.cfg.stepS) v with
  | true => exact if_neg (ne_true_of_eq_false (congrArg not hs))
  | false => exact if_pos (congrArg not hs)

/-- A detection sets acc, and nothing clears it (R132). -/
theorem Run.account_eq (u : Run) (c : WindowClass) : u.account c = { u with acc := u.acc || decide (c ≠ .none) } := by
  cases c <;> simp

theorem suppressed_iff (r : Regs) (u : Run) (pos : Nat) (v : BitVec 4) : suppressed r u pos v = true ↔
    r.ctrl.getLsbD 3 = true ∧ u.dbValid = true ∧ v = u.dbLast ∧ u.dbGap = false ∧ pos ≤ u.dbPos + r.dbGuard.toNat := by
  simp [suppressed, Regs.dbEn, and_assoc]

end

/-- With no gap since, the last detection's window begins exactly one step before the next one to complete, so DB_GUARD reaches
it iff it is at least the step (R134, R143). -/
theorem Block.Inv.suppressed_iff {b : Block} {par : Params} (hb : b.Inv par) (hst : b.stage = .scan) (v : BitVec 4) :
    suppressed b.cfg b.run (b.run.wcount * b.cfg.stepS) v = true ↔ b.cfg.dbEn = true ∧ b.run.dbValid = true ∧
      v = b.run.dbLast ∧ b.run.dbGap = false ∧ b.cfg.stepS ≤ b.cfg.dbGuard.toNat := by
  obtain ⟨-, hscan, -⟩ := hb.debounce
  obtain ⟨-, -, hexact⟩ := hscan hst
  rw [Machine.suppressed_iff]
  refine and_congr_right fun _ => and_congr_right fun hvalid => and_congr_right fun _ => and_congr_right fun hgap => ?_
  rw [← hexact hvalid hgap]
  omega

/-! ### The FIFO and the counters, by instruction -/

theorem Block.running_iff {b : Block} : b.running = true ↔ b.stage = .scan ∨ b.stage = .oneshot := by
  cases h : b.stage <;> simp [running, h, Stage.running]

/-- A push leaves the FIFO as it is, or had room for the word. -/
theorem Block.push_fifo (b : Block) (par : Params) (w : Word) : (b.push par w).fifo = b.fifo ∨
    b.fifo.length ≠ par.rfifoDepth ∧ (b.push par w).fifo = b.fifo ++ [w] := by
  obtain ⟨-, e⟩ | ⟨hroom, e⟩ := b.push_cases par w
  · exact .inl (by simp [e])
  · exact .inr ⟨hroom, by simp [e]⟩

/-- A sample adds at most one word, and only to a FIFO with room. -/
theorem execWrSample_fifo {s t : State} {x : Word} (he : execWrSample x s = .next t) : t.blk.fifo = s.blk.fifo ∨
    s.blk.fifo.length ≠ s.par.rfifoDepth ∧ ∃ w, t.blk.fifo = s.blk.fifo ++ [w] := by
  obtain ⟨-, e⟩ | ⟨-, -, e⟩ | ⟨c, -, -, e⟩ | ⟨k, c, -, -, e⟩ := execWrSample_next he
  · exact .inl (by simp [e])
  · exact .inl (by simp [e])
  · obtain hkept | ⟨hroom, hpushed⟩ := Block.push_fifo ((s.blk.setRun (s.blk.run.absorb x)).evaluated
      (powers s.blk.cfg.coef (s.blk.windowWith x)) c) s.par (resultWord s.blk.cfg 0 c)
    · exact .inl (by simpa [e, Block.completeOneshot] using hkept)
    · exact .inr ⟨by simpa using hroom, _, by simpa [e, Block.completeOneshot] using hpushed⟩
  · rw [← Block.scanned] at e
    cases c with
    | none => exact .inl (by rw [e, Block.scanned_none])
    | detect v l h =>
      rw [e, Block.scanned_detect]
      split
      · exact .inl rfl
      · obtain hkept | ⟨hroom, hpushed⟩ := Block.push_fifo
          (s.blk.detected (powers s.blk.cfg.coef (s.blk.windowWith x)) k x v) s.par
          (resultWord s.blk.cfg k (.detect v l h))
        · exact .inl hkept
        · exact .inr ⟨hroom, _, hpushed⟩

/-- A command adds no word: it leaves the FIFO as it is or empties it. -/
theorem commandEffect_fifo (par : Params) (c : Command) (b : Block) : (commandEffect par c b).fifo = b.fifo ∨
    (commandEffect par c b).fifo = [] ∧ (c = .flush ∨ c = .softReset ∨ c = .startScan ∨ c = .startOneshot) := by
  obtain ⟨-, e⟩ | ⟨-, -, e⟩ | ⟨-, hc, e⟩ | ⟨-, hc, e⟩ | ⟨-, -, e⟩ | ⟨-, e⟩ | ⟨hc, e⟩ | ⟨hc, e⟩ :=
    commandEffect_cases par c b
  · exact .inl (by simp [e])
  · exact .inl (by simp [e])
  · rw [e]
    split
    · exact .inr ⟨rfl, by simp [hc]⟩
    · exact .inl (by simp)
  · rw [e]
    split
    · exact .inr ⟨rfl, by simp [hc]⟩
    · exact .inl (by simp)
  · exact .inl (by simp [e])
  · exact .inl (by simp [e])
  · exact .inr ⟨by simp [e], by simp [hc]⟩
  · exact .inr ⟨by rw [e]; rfl, by simp [hc]⟩

/-- A sample in a run is counted, and so is the window it completes. -/
theorem execWrSample_counters {s t : State} {x : Word} (he : execWrSample x s = .next t) (hr : s.blk.running = true) :
    t.blk.run.index = s.blk.run.index + 1 ∧ t.blk.run.wcount = s.blk.run.wcount +
      if completedWindow s.blk.stage s.blk.cfg.winN s.blk.cfg.stepS s.blk.run.index = none then 0 else 1 := by
  obtain ⟨hr', -⟩ | ⟨-, hk, e⟩ | ⟨k, -, -, -, e⟩ | ⟨k, c, -, hk, -, e⟩ := execWrSample_cases x s
  · simp [hr] at hr'
  · rw [e] at he
    cases he
    simp [hk]
  · simp [e] at he
  · rw [e] at he
    cases he
    simp [hk, Block.complete_keeps]

/-- The commands that clear the counters: SOFT_RESET, and a START that its STATE allows and whose check passes (R105, R112). -/
def clearsCounters (par : Params) (c : Command) (b : Block) : Prop :=
  c = .softReset ∨ ((b.stage = .idle ∨ b.stage = .done) ∧
    ((c = .startScan ∧ cfgOk par true b.cfg = true) ∨ (c = .startOneshot ∧ cfgOk par false b.cfg = true)))

/-- A START of either kind begins the run state afresh iff its STATE allows it and its check passes. -/
theorem Block.guarded_start_run (b : Block) (par : Params) (c : Command) (scan : Bool) (st : Stage) :
    let b' := b.guarded c fun b => if cfgOk par scan b.cfg then b.runInit st else b.raise .cfgerr
    (allowed c b.stage = true ∧ cfgOk par scan b.cfg = true → b'.run = Run.init) ∧
    (¬ (allowed c b.stage = true ∧ cfgOk par scan b.cfg = true) → b'.run = b.run) := by
  obtain ⟨ha, e⟩ | ⟨ha, e⟩ := b.guarded_cases c fun b => if cfgOk par scan b.cfg then b.runInit st else b.raise .cfgerr
  · cases hok : cfgOk par scan b.cfg <;> simp [e, ha, hok]
  · simp [e, ha]

theorem Block.guarded_counters {b : Block} (c : Command) {f : Block → Block}
    (hf : (f b).run.index = b.run.index ∧ (f b).run.wcount = b.run.wcount) :
    (b.guarded c f).run.index = b.run.index ∧ (b.guarded c f).run.wcount = b.run.wcount := by
  obtain ⟨-, e⟩ | ⟨-, e⟩ := b.guarded_cases c f <;> rw [e]
  · exact hf
  · simp

/-- A command that clears the counters sets both to zero; every other one keeps both. -/
theorem commandEffect_counters (par : Params) (c : Command) (b : Block) :
    (clearsCounters par c b → (commandEffect par c b).run = Run.init) ∧
    (¬ clearsCounters par c b → (commandEffect par c b).run.index = b.run.index ∧
      (commandEffect par c b).run.wcount = b.run.wcount) := by
  cases c with
  | softReset => exact ⟨fun _ => rfl, fun h => absurd (.inl rfl) h⟩
  | startScan =>
    obtain ⟨hbegun, hkept⟩ := b.guarded_start_run par .startScan true .scan
    have hiff : clearsCounters par .startScan b ↔ allowed .startScan b.stage = true ∧ cfgOk par true b.cfg = true := by
      simp [clearsCounters, allowed_startScan]
    rw [hiff]
    exact ⟨hbegun, fun h => by simp [commandEffect, hkept h]⟩
  | startOneshot =>
    obtain ⟨hbegun, hkept⟩ := b.guarded_start_run par .startOneshot false .oneshot
    have hiff : clearsCounters par .startOneshot b ↔
        allowed .startOneshot b.stage = true ∧ cfgOk par false b.cfg = true := by
      simp [clearsCounters, allowed_startOneshot]
    rw [hiff]
    exact ⟨hbegun, fun h => by simp [commandEffect, hkept h]⟩
  | invalid word => exact ⟨fun h => by simp [clearsCounters] at h, fun _ => by simp [commandEffect]⟩
  | nop => exact ⟨fun h => by simp [clearsCounters] at h, fun _ => Block.guarded_counters _ ⟨rfl, rfl⟩⟩
  | flush => exact ⟨fun h => by simp [clearsCounters] at h, fun _ => Block.guarded_counters _ ⟨rfl, rfl⟩⟩
  | abort => exact ⟨fun h => by simp [clearsCounters] at h, fun _ => Block.guarded_counters _ ⟨rfl, rfl⟩⟩
  | endStream => exact ⟨fun h => by simp [clearsCounters] at h, fun _ => Block.guarded_counters _ ⟨rfl, rfl⟩⟩

end Sys2Proof.Machine
end

section
/-! PROOF. The statements about the sample path (spec/42_sample_path.md R115-R143) and its counters (spec/43_result_readout.md
R148, R149). -/

namespace Sys2Proof.Proofs

open Sys2Proof.Machine

/-- Settles O43: the division in R120 is exact. -/
theorem windowCompletesAtItsLastSample : Obligations.WindowCompletesAtItsLastSample := by
  unfold Obligations.WindowCompletesAtItsLastSample
  exact ⟨fun _ _ _ _ hs hn => completedWindow_scan_iff hs hn, fun _ _ _ _ hn => completedWindow_oneshot_iff hn⟩

/-- Settles O44: the refused sample raises SERR. -/
theorem sampleOutsideARunIsRefused : Obligations.SampleOutsideARunIsRefused := by
  unfold Obligations.SampleOutsideARunIsRefused
  exact fun s x hst => exec_wrSample_of_not_running x (Block.running_eq_false hst)

/-- Settles O45: the sample at hand is the last of no window. -/
theorem sampleInsideAWindowIsAbsorbed : Obligations.SampleInsideAWindowIsAbsorbed := by
  unfold Obligations.SampleInsideAWindowIsAbsorbed
  intro s x n i hopen
  have hr : s.blk.running = true := Block.running_iff.2 (hopen.imp And.left And.left)
  refine exec_wrSample_of_open x hr ((completedWindow_eq_none_iff hr).2 ?_)
  rintro (⟨hst, hle, hmod⟩ | ⟨hst, hlast⟩)
  · obtain ⟨-, hlt | hne⟩ | ⟨hst', -⟩ := hopen
    · omega
    · exact hne hmod
    · simp [hst] at hst'
  · obtain ⟨hst', -⟩ | ⟨-, hne⟩ := hopen
    · simp [hst] at hst'
    · exact hne hlast

/-- Settles O46: a silent window sets the gap and emits nothing. -/
theorem silentScanWindow : Obligations.SilentScanWindow := by
  unfold Obligations.SilentScanWindow
  intro s x b n i xs hst hle hmod hc
  refine ⟨powers b.cfg.coef xs, bankGet_powers _ _, ?_⟩
  rw [exec_wrSample_scan x hst (if_pos ⟨hle, hmod⟩) hc, Block.scanned_none]
  rfl

/-- Settles O47: a detecting window becomes the last detection, and debounce decides whether its word is pushed. -/
theorem detectingScanWindow : Obligations.DetectingScanWindow := by
  unfold Obligations.DetectingScanWindow
  intro s x v l h b n i k pos xs suppress full hst hle hmod hc
  have hsup : suppressed b.cfg b.run pos v = true ↔ suppress := suppressed_iff _ _ _ _
  refine ⟨powers b.cfg.coef xs, bankGet_powers _ _, ?_⟩
  rw [exec_wrSample_scan x hst (if_pos ⟨hle, hmod⟩) hc, Block.scanned_detect]
  refine ⟨fun hs => ?_, fun hs hroom => ?_, fun hs hfull => ?_⟩
  · rw [if_pos (hsup.2 hs)]
    rfl
  · rw [if_neg (hsup.not.2 hs), Block.push_of_room (b.detected _ k x v) s.par hroom]
    rfl
  · rw [if_neg (hsup.not.2 hs), Block.push_of_full (b.detected _ k x v) s.par hfull]
    rfl

/-- Settles O48: the word is pushed whatever its class is, and the run is finished. -/
theorem oneshotCompletes : Obligations.OneshotCompletes := by
  unfold Obligations.OneshotCompletes
  intro s x c b n i xs full hst hlast hc
  refine ⟨powers b.cfg.coef xs, bankGet_powers _ _, ?_⟩
  have hposted : b.irqStat ||| 0b011#3 = b.irqStat ||| Event.res.mask ||| Event.done.mask :=
    (BitVec.or_assoc _ Event.res.mask Event.done.mask).symm
  have hdropped : b.irqStat ||| 0b110#3 = b.irqStat ||| Event.err.mask ||| Event.done.mask :=
    (BitVec.or_assoc _ Event.err.mask Event.done.mask).symm
  rw [exec_wrSample_oneshot x hst hlast hc, Block.completeOneshot, Block.evaluated_eq, Run.account_eq, hposted, hdropped]
  refine ⟨fun hroom => ?_, fun hfull => ?_⟩
  · rw [Block.push_of_room _ _ (by exact hroom)]
    rfl
  · rw [Block.push_of_full _ _ (by exact hfull)]
    rfl

/-- Settles O49: with no gap since, the last detection lies exactly one step before the window at hand, so DB_GUARD covers it iff
it is at least the step. -/
theorem debounceIdempotence : Obligations.DebounceIdempotence := by
  unfold Obligations.DebounceIdempotence
  intro s x v l h b n i hinv hst hle hmod hc hen
  obtain ⟨-, hb⟩ := s.inv_iff.1 hinv
  have hk : completedWindow .scan n b.cfg.stepS i = some ((i + 1 - n) / b.cfg.stepS) := if_pos ⟨hle, hmod⟩
  obtain ⟨hwin, hfill⟩ := hb.scan_window hst hk
  have hxs : b.windowWith x = b.run.samples ++ [x] := lastSamples_all (by simpa using hfill.le)
  rw [← hwin] at hk
  rw [← hxs] at hc
  have hsup := hb.suppressed_iff hst v
  refine ⟨_, exec_wrSample_scan x hst hk hc, fun hguard hvalid hlast hgap => ?_, fun hcase hroom => ?_⟩ <;>
    rw [State.written_blk, Block.scanned_detect]
  · rw [if_pos (hsup.2 ⟨hen, hvalid, hlast.symm, hgap, hguard⟩)]
    exact ⟨rfl, Block.flag_ovf_latchedSticky _ _⟩
  · rw [if_neg, Block.push_of_room (b.detected _ b.run.wcount x v) s.par hroom.ne]
    · rfl
    · rw [hsup]
      rintro ⟨-, hvalid, hlast, hgap, hguard⟩
      obtain hshort | hfirst | hother | hgap' := hcase
      · exact hshort.not_ge hguard
      · exact Bool.false_ne_true (hfirst.symm.trans hvalid)
      · exact hother hlast.symm
      · exact Bool.false_ne_true (hgap.symm.trans hgap')

/-- Settles O50: by the operation on the block that the instruction performs. -/
theorem atMostOneResultPerOperation : Obligations.AtMostOneResultPerOperation := by
  unfold Obligations.AtMostOneResultPerOperation
  intro i s t he
  obtain ⟨-, ⟨-, -, -, e⟩ | ⟨hi, e⟩ | ⟨-, -, f, e⟩ | ⟨d, -, e⟩ | ⟨d, -, e⟩ | ⟨d, -, e⟩ | ⟨c, hc, e⟩ | ⟨x, hi, hx⟩⟩ :=
    exec_inv he
  · exact .inl (by rw [e])
  · exact .inr (.inl ⟨hi, by rw [e, Block.popped_fifo]⟩)
  · exact .inl (by rw [e, Block.lockedWrite_fifo])
  · exact .inl (by rw [e, Block.clearSticky_fifo])
  · exact .inl (by rw [e, Block.clearEvents_fifo])
  · exact .inl (by rw [e, Block.setIrqEn_fifo])
  · rw [e, hc]
    simp only [Option.some.injEq]
    exact (commandEffect_fifo s.par c s.blk).imp_right fun h => .inr (.inl h)
  · exact (execWrSample_fifo hx).imp_right fun h => .inr (.inr ⟨⟨x, hi⟩, h⟩)

/-- Settles O55: a sample and a command move the counters as stated, and no other instruction writes the run state. -/
theorem countersMoveOnlyWithSamples : Obligations.CountersMoveOnlyWithSamples := by
  unfold Obligations.CountersMoveOnlyWithSamples
  intro i s t he absorbed cleared completing
  cases hc : i.command with
  | some c =>
    have hx : ¬ absorbed := by
      rintro ⟨⟨x, rfl⟩, -⟩
      simp [Instr.command] at hc
    have hcleared : cleared ↔ clearsCounters s.par c s.blk := by simp [cleared, hc, clearsCounters]
    obtain ⟨hinit, hkept⟩ := commandEffect_counters s.par c s.blk
    rw [exec_command hc] at he
    cases he
    refine ⟨fun h => absurd h hx, fun h => ?_, fun _ h => hkept (hcleared.not.1 h)⟩
    rw [State.written_blk, hinit (hcleared.1 h)]
    exact ⟨rfl, rfl⟩
  | none =>
    have hcleared : ¬ cleared := by simp [cleared, hc]
    by_cases hx : absorbed
    · obtain ⟨⟨x, rfl⟩, hst⟩ := id hx
      have hr := Block.running_iff.2 hst
      obtain ⟨hindex, hwcount⟩ := execWrSample_counters he hr
      have hnone := completedWindow_eq_none_iff hr
      refine ⟨fun _ => ⟨hindex, fun h => ?_, fun h => ?_⟩, fun h => absurd h hcleared, fun h _ => absurd hx h⟩
      · rw [hwcount, if_neg (hnone.not.2 (not_not_intro h))]
      · rw [hwcount, if_pos (hnone.2 h), Nat.add_zero]
    · obtain ⟨-, -, -, hrun | ⟨hsample, hr⟩ | hcmd, -⟩ := whoWritesWhat i s t he
      · exact ⟨fun h => absurd h hx, fun h => absurd h hcleared, fun _ _ => by rw [hrun]; exact ⟨rfl, rfl⟩⟩
      · exact absurd ⟨hsample, Block.running_iff.1 hr⟩ hx
      · exact absurd hc hcmd

/-- Settles O60: the kept samples are those from the next window to complete on, fewer than N of them, and R104 bounds N / S. -/
theorem scanBounds : Obligations.ScanBounds := by
  unfold Obligations.ScanBounds
  intro s hinv hst n st i
  obtain ⟨hcount, hkept, hlt⟩ := hinv.schedule.1 hst
  have hok := hinv.config.1 hst
  obtain ⟨hs, hsn⟩ := cfgOk_step hinv.params hok
  obtain ⟨-, hquarter, -⟩ := cfgOk_scan_iff.1 hok
  have hlast := (Nat.add_comm _ _).trans hkept
  refine ⟨hs, hsn, hcount, Nat.le_pred_of_lt hlt, hlast, ceilDiv_le_four hs hquarter, fun k hbegun hopen => ?_⟩
  have hwk : s.blk.run.wcount ≤ k := hcount.trans_le (windowsCompleted_le hs hopen)
  exact ⟨hwk, lt_add_ceilDiv hs hlt hwk (hbegun.trans_eq hlast.symm)⟩

end Sys2Proof.Proofs
end

section
/-! SUPPORT. The selectors of the POWER bank (spec/30_encoding.md R60) and a pop of the result FIFO
(spec/43_result_readout.md R146). -/

namespace Sys2Proof

theorem decodeBusop_rdPower (j : Slot) (data : Word) :
    decodeBusop (BitVec.ofNat 11 (0x280 + 4 * j.val)) data = .rdPower j := by
  obtain ⟨-, hlo, hhi⟩ := offsetAt_bounds (base := 0x80) rfl (by decide) j.isLt
  refine (decodeBusop_bankRead (base := 0x80) rfl (by omega) data).trans ?_
  rw [decodeRead_power hlo hhi, slotOf_offsetAt rfl (by decide)]

end Sys2Proof

namespace Sys2Proof.Machine

/-! ### The FIFO's two cases (R146) -/

section
variable {b : Block}

theorem Block.popWord_of_nil (h : b.fifo = []) : b.popWord = 0#32 := by
  rw [popWord, h]

theorem Block.popWord_of_cons {w : Word} {rest : List Word} (h : b.fifo = w :: rest) : b.popWord = w := by
  rw [popWord, h]

/-- Popping an empty FIFO leaves the whole block as it is. -/
theorem Block.popped_of_nil (h : b.fifo = []) : b.popped = b := by
  rw [popped, h, List.tail_nil, ← h]
  rfl

theorem Block.popped_of_cons {w : Word} {rest : List Word} (h : b.fifo = w :: rest) : b.popped = b.setFifo rest := by
  rw [popped, h, List.tail_cons]

end

/-! ### RD_RESULT, case by case -/

theorem exec_rdResult (s : State) : exec .rdResult s = .next ((s.setBlk s.blk.popped).answer s.blk.popWord) := rfl

section
variable {s : State}

theorem exec_rdResult_of_nil (h : s.blk.fifo = []) : exec .rdResult s = .next (s.answer 0#32) := by
  rw [exec_rdResult, Block.popped_of_nil h, Block.popWord_of_nil h]
  rfl

theorem exec_rdResult_of_cons {w : Word} {rest : List Word} (h : s.blk.fifo = w :: rest) :
    exec .rdResult s = .next ((s.setBlk (s.blk.setFifo rest)).answer w) := by
  rw [exec_rdResult, Block.popped_of_cons h, Block.popWord_of_cons h]

end

end Sys2Proof.Machine
end

section
/-! PROOF. The statements about the result readout (spec/43_result_readout.md R146-R149). -/

namespace Sys2Proof.Proofs

open Sys2Proof.Machine

/-- Settles O18: RD_RESULT answers the popped word, by whether the FIFO is empty or has a head. -/
theorem resultReadPops : Obligations.ResultReadPops := by
  unfold Obligations.ResultReadPops
  exact fun s => ⟨fun _ => rfl, exec_rdResult_of_nil, fun _ _ => exec_rdResult_of_cons⟩

/-- Settles O19: the POWER selectors are those of the bank's offsets, and a counter's word is the number modulo 2^32. -/
theorem powerAndCounterReads : Obligations.PowerAndCounterReads := by
  unfold Obligations.PowerAndCounterReads
  exact fun s => ⟨decodeBusop_rdPower, fun _ => ⟨rfl, rfl⟩, fun _ => rfl,
    ⟨_, rfl, BitVec.toNat_ofNat s.blk.run.index 32⟩, ⟨_, rfl, BitVec.toNat_ofNat s.blk.run.wcount 32⟩⟩

end Sys2Proof.Proofs
end

section
/-! SUPPORT. The completion of every instruction and every step (spec/60_exceptions.md R152, spec/42_sample_path.md R125), and
the cause of each sticky bit that an operation newly sets (spec/60_exceptions.md R153, R154). -/

namespace Sys2Proof.Machine

/-! ### Every operation completes but for the one fault (R152, R125, log 4) -/

section
variable {s : State}

/-- The one condition of completion: a sample in a run wants a MODE with a classifier. -/
theorem exec_completes {i : Instr}
    (h : ∀ x, i = .wrSample x → s.blk.running = true → s.blk.cfg.mode ≠ .invalid) : ∃ t, exec i s = .next t := by
  cases hc : i.command with
  | some c => exact ⟨_, exec_command hc s⟩
  | none =>
    cases i <;> simp only [Instr.command, reduceCtorEq] at hc
    case wrSample x =>
      obtain ⟨-, e⟩ | ⟨-, -, e⟩ | ⟨k, hr, -, hnone, -⟩ | ⟨k, c, -, -, -, e⟩ := execWrSample_cases x s
      · exact ⟨_, e⟩
      · exact ⟨_, e⟩
      · obtain ⟨c, hsome⟩ := classify_isSome (h x rfl hr) (powers s.blk.cfg.coef (s.blk.windowWith x))
        simp [hnone] at hsome
      · exact ⟨_, e⟩
    all_goals exact ⟨_, rfl⟩

/-- An `rst` in flight completes if its operation does: the free draw only decides what the master saw. -/
theorem resetInFlight_completes {i : Instr} (h : ∃ t, exec i s = .next t) : ∃ t, resetInFlight i s = .next t := by
  obtain ⟨t, ht⟩ := h
  unfold resetInFlight
  split
  · exact ⟨t.resetBlock.drawn, by rw [ht]⟩
  · exact ⟨_, rfl⟩

theorem step_completes (h : s.blk.running = true → s.blk.cfg.mode ≠ .invalid) : ∃ t, step s = .next t := by
  unfold step
  split
  · exact ⟨_, rfl⟩
  · exact exec_completes fun _ _ => h
  · exact ⟨_, rfl⟩
  · exact resetInFlight_completes (exec_completes fun _ _ => h)

/-- A run passed the configuration check at its START, so its MODE is not 3 (R104). -/
theorem State.Inv.mode_ne_invalid (h : s.Inv) (hr : s.blk.running = true) : s.blk.cfg.mode ≠ .invalid := by
  obtain ⟨hscan, honeshot⟩ := h.config
  obtain hst | hst := Block.running_iff.1 hr
  · exact (cfgOk_bounds h.params (hscan hst)).1
  · exact (cfgOk_bounds h.params (honeshot hst)).1

theorem classify_of_invalid {r : Regs} (h : r.mode = .invalid) (p : Bank) : classify r p = none := by simp [classify, h]

/-- The one fault: a sample completes a window whose powers no classifier reads. -/
theorem exec_wrSample_of_mode_invalid (x : Word) (hr : s.blk.running = true) (hmode : s.blk.cfg.mode = .invalid)
    (hk : completedWindow s.blk.stage s.blk.cfg.winN s.blk.cfg.stepS s.blk.run.index ≠ none) :
    exec (.wrSample x) s = .fault .modeInvalidInRun := by
  obtain ⟨hr', -⟩ | ⟨-, hk', -⟩ | ⟨k, -, -, -, e⟩ | ⟨k, c, -, -, hc, -⟩ := execWrSample_cases x s
  · simp [hr] at hr'
  · exact absurd hk' hk
  · exact e
  · simp [classify_of_invalid hmode] at hc

end

/-! ### The cause of a newly set sticky bit (R153, R154) -/

section
variable {b : Block} {par : Params} {e : ErrBit}

theorem Block.eq_of_raise_flag {f : ErrBit} (hb : b.flag e = false) (h : (b.raise f).flag e = true) : f = e := by
  simpa [hb] using h

theorem Block.not_flag_of_sticky_eq {b' : Block} (hs : b'.sticky = b.sticky) (hb : b.flag e = false) :
    ¬ b'.flag e = true := by
  rw [flag, hs, ← flag, hb]
  decide

/-- `set_sticky(F)` of any F but NANSEEN sets ERR (R153). -/
theorem Block.pending_err_raise (b : Block) (h : e ≠ .nanseen) : (b.raise e).pending .err = true := by simp [h]

theorem Block.setRun_flag (b : Block) (u : Run) (e : ErrBit) : (b.setRun u).flag e = b.flag e := rfl

/-- Clearing sticky bits sets none. -/
theorem Block.flag_of_clearSticky_flag {m : BitVec 6} (h : (b.clearSticky m).flag e = true) : b.flag e = true := by
  simp only [flag, clearSticky, setSticky_sticky, BitVec.getLsbD_and, Bool.and_eq_true] at h
  exact h.1

/-- The run lock newly sets WERR only, in a run. -/
theorem Block.lockedWrite_sets {f : Regs → Regs} (hb : b.flag e = false) (h : (b.lockedWrite f).flag e = true) :
    e = .werr ∧ b.running = true ∧ (b.lockedWrite f).pending .err = true := by
  obtain ⟨hr, he⟩ | ⟨-, he⟩ := b.lockedWrite_cases f <;> rw [he] at h ⊢
  · exact ⟨(eq_of_raise_flag hb h).symm, hr, b.pending_err_raise (by decide)⟩
  · exact absurd h (not_flag_of_sticky_eq rfl hb)

/-- A START newly sets CFGERR only, when its configuration check fails. -/
theorem Block.start_sets {scan : Bool} {st : Stage} (hb : b.flag e = false)
    (h : (if cfgOk par scan b.cfg then b.runInit st else b.raise .cfgerr).flag e = true) :
    e = .cfgerr ∧ cfgOk par scan b.cfg = false ∧
      (if cfgOk par scan b.cfg then b.runInit st else b.raise .cfgerr).pending .err = true := by
  split at h <;> rename_i hok
  · exact absurd h (not_flag_of_sticky_eq rfl hb)
  · rw [if_neg hok]
    exact ⟨(eq_of_raise_flag hb h).symm, by simpa using hok, b.pending_err_raise (by decide)⟩

/-- A command newly sets CMDERR only, when its STATE does not allow it, or CFGERR, when it is a START whose check fails. -/
theorem commandEffect_sets {c : Command} (hb : b.flag e = false) (h : (commandEffect par c b).flag e = true) :
    (e = .cmderr ∧ allowed c b.stage = false ∨
      e = .cfgerr ∧ b.running = false ∧ (c = .startScan ∧ cfgOk par true b.cfg = false ∨
        c = .startOneshot ∧ cfgOk par false b.cfg = false)) ∧ (commandEffect par c b).pending .err = true := by
  obtain ⟨ha, hc⟩ | ⟨-, -, hc⟩ | ⟨ha, rfl, hc⟩ | ⟨ha, rfl, hc⟩ | ⟨-, -, hc⟩ | ⟨-, hc⟩ | ⟨-, hc⟩ | ⟨-, hc⟩ :=
    commandEffect_cases par c b <;> rw [hc] at h ⊢
  · exact ⟨.inl ⟨(Block.eq_of_raise_flag hb h).symm, ha⟩, b.pending_err_raise (by decide)⟩
  · exact absurd h (Block.not_flag_of_sticky_eq rfl hb)
  · obtain ⟨he, hok, herr⟩ := Block.start_sets hb h
    exact ⟨.inr ⟨he, Block.running_eq_false ((allowed_startScan _).1 ha), .inl ⟨rfl, hok⟩⟩, herr⟩
  · obtain ⟨he, hok, herr⟩ := Block.start_sets hb h
    exact ⟨.inr ⟨he, Block.running_eq_false ((allowed_startOneshot _).1 ha), .inr ⟨rfl, hok⟩⟩, herr⟩
  · exact absurd h (Block.not_flag_of_sticky_eq rfl hb)
  · exact absurd h (Block.not_flag_of_sticky_eq rfl hb)
  · exact absurd h (Block.not_flag_of_sticky_eq rfl hb)
  · simp [Block.flag, Block.reset] at h

/-- A push newly sets OVF only, to a full FIFO. -/
theorem Block.push_sets {w : Word} (hb : b.flag e = false) (h : (b.push par w).flag e = true) :
    e = .ovf ∧ b.fifo.length = par.rfifoDepth ∧ (b.push par w).pending .err = true := by
  obtain ⟨hfull, hpush⟩ | ⟨-, hpush⟩ := b.push_cases par w <;> rw [hpush] at h ⊢
  · exact ⟨(eq_of_raise_flag hb h).symm, hfull, b.pending_err_raise (by decide)⟩
  · exact absurd h (not_flag_of_sticky_eq rfl hb)

/-- The evaluation of a window newly sets NANSEEN only, for a NaN power. -/
theorem Block.evaluated_sets {p : Bank} {c : WindowClass} (hb : b.flag e = false)
    (h : (b.evaluated p c).flag e = true) : e = .nanseen ∧ ∃ j, F32.isNaN (bankGet p j) = true := by
  rw [flag, evaluated_sticky, ← flag, latch_flag, hb, Bool.false_or, Bool.and_eq_true, decide_eq_true_eq] at h
  obtain ⟨he, hnan⟩ := h
  exact ⟨he.symm, (bankAny_iff _ _).1 hnan⟩

/-- A completion is that of a ONESHOT or that of a SCAN (R136, R137). -/
theorem Block.complete_cases (b : Block) (par : Params) (k : Nat) (xs : List Word) (c : WindowClass) :
    b.complete par k xs c = b.completeOneshot par c ∨ b.complete par k xs c = b.completeScan par k xs c := by
  unfold complete
  split
  · exact .inl rfl
  all_goals exact .inr rfl

/-- A completion of either kind newly sets OVF only, when its push finds the FIFO full. -/
theorem Block.complete_sets {k : Nat} {xs : List Word} {c : WindowClass} (hb : b.flag e = false)
    (h : (b.complete par k xs c).flag e = true) :
    e = .ovf ∧ b.fifo.length = par.rfifoDepth ∧ (b.complete par k xs c).pending .err = true := by
  obtain hc | hc := b.complete_cases par k xs c <;> rw [hc] at h ⊢
  · rw [flag, completeOneshot, finish_sticky, ← flag] at h
    obtain ⟨he, hfull, herr⟩ := push_sets hb h
    exact ⟨he, hfull, (keepsFlags_finish _).2 .err herr⟩
  · obtain ⟨-, hs⟩ | ⟨-, hs⟩ := b.completeScan_cases par k xs c <;> rw [hs] at h ⊢
    · have hpush := push_sets ((b.setRun_flag _ e).trans hb) h
      rwa [setRun_fifo] at hpush
    · exact absurd h (not_flag_of_sticky_eq rfl hb)

/-- A window newly sets NANSEEN only, when a NaN power is latched, and OVF, when its word finds the FIFO full. -/
theorem Block.evaluated_complete_sets {k : Nat} {xs : List Word} {p : Bank} {c : WindowClass} (hb : b.flag e = false)
    (h : ((b.evaluated p c).complete par k xs c).flag e = true) :
    e = .ovf ∧ b.fifo.length = par.rfifoDepth ∧ ((b.evaluated p c).complete par k xs c).pending .err = true ∨
    e = .nanseen ∧ ∃ j, F32.isNaN (bankGet ((b.evaluated p c).complete par k xs c).power j) = true := by
  cases hev : (b.evaluated p c).flag e with
  | true =>
    obtain ⟨hpower, -⟩ := (b.evaluated p c).complete_keeps par k xs c
    rw [hpower, evaluated_power]
    exact .inr (evaluated_sets hb hev)
  | false =>
    rw [← evaluated_fifo b p c]
    exact .inl (complete_sets hev h)

/-- A sample newly sets SERR only outside a run; in a run OVF only, when the FIFO is full, and NANSEEN, when it latches a NaN. -/
theorem execWrSample_sets {s t : State} {x : Word} (he : execWrSample x s = .next t) (hb : s.blk.flag e = false)
    (h : t.blk.flag e = true) :
    e = .serr ∧ s.blk.running = false ∧ t.blk.pending .err = true ∨
    e = .ovf ∧ s.blk.running = true ∧ s.blk.fifo.length = s.par.rfifoDepth ∧ t.blk.pending .err = true ∨
    e = .nanseen ∧ s.blk.running = true ∧ ∃ j, F32.isNaN (bankGet t.blk.power j) = true := by
  obtain ⟨hr, hx⟩ | ⟨-, -, hx⟩ | ⟨k, -, -, -, hx⟩ | ⟨k, c, hr, -, -, hx⟩ := execWrSample_cases x s <;>
    rw [hx] at he <;> cases he <;> rw [State.written_blk] at h ⊢
  · exact .inl ⟨(Block.eq_of_raise_flag hb h).symm, hr, s.blk.pending_err_raise (by decide)⟩
  · exact absurd h (Block.not_flag_of_sticky_eq rfl hb)
  · obtain ⟨he, hfull, herr⟩ | ⟨he, hnan⟩ := Block.evaluated_complete_sets ((s.blk.setRun_flag _ e).trans hb) h
    · exact .inr (.inl ⟨he, hr, hfull, herr⟩)
    · exact .inr (.inr ⟨he, hr, hnan⟩)

end

end Sys2Proof.Machine
end

section
/-! PROOF. The statements about errors and completion (spec/60_exceptions.md R152-R154). -/

namespace Sys2Proof.Proofs

open Sys2Proof.Machine

/-- Settles O52: by the operation on the block that the instruction performs. A lock, a command or a sample raises the bit; the
W1C write of the sticky bits only clears, and no other operation touches them. -/
theorem errorCauses : Obligations.ErrorCauses := by
  unfold Obligations.ErrorCauses
  intro i s t e he hb h
  have hkept {P : Prop} (hs : t.blk.sticky = s.blk.sticky) : P := absurd h (Block.not_flag_of_sticky_eq hs hb)
  obtain ⟨-, ⟨-, -, -, ht⟩ | ⟨-, ht⟩ | ⟨-, hl, f, ht⟩ | ⟨d, -, ht⟩ | ⟨d, -, ht⟩ | ⟨d, -, ht⟩ | ⟨c, hc, ht⟩ | ⟨x, hi, hx⟩⟩ :=
    exec_inv he
  · exact hkept (by rw [ht])
  · exact hkept (by simp [ht])
  · rw [ht] at h ⊢
    obtain ⟨rfl, hr, herr⟩ := Block.lockedWrite_sets hb h
    exact ⟨⟨hl, hr⟩, fun _ => herr⟩
  · rw [ht] at h
    exact absurd (Block.flag_of_clearSticky_flag h) (by simp [hb])
  · exact hkept (by simp [ht])
  · exact hkept (by simp [ht])
  · rw [ht] at h ⊢
    obtain ⟨⟨rfl, ha⟩ | ⟨rfl, hr, hstart⟩, herr⟩ := commandEffect_sets hb h
    · exact ⟨⟨c, hc, ha⟩, fun _ => herr⟩
    · exact ⟨⟨hr, by simpa [hc] using hstart⟩, fun _ => herr⟩
  · obtain ⟨rfl, hr, herr⟩ | ⟨rfl, hr, hfull, herr⟩ | ⟨rfl, hr, hnan⟩ := execWrSample_sets hx hb h
    · exact ⟨⟨⟨x, hi⟩, hr⟩, fun _ => herr⟩
    · exact ⟨⟨⟨x, hi⟩, hr, hfull⟩, fun _ => herr⟩
    · exact ⟨⟨⟨x, hi⟩, hr, hnan⟩, fun hne => absurd rfl hne⟩

/-- Settles O59: the one condition of completion is MODE, in a run, and the invariant gives it. -/
theorem everyOperationCompletes : Obligations.EveryOperationCompletes := by
  unfold Obligations.EveryOperationCompletes
  refine ⟨fun i s hmode => exec_completes fun _ _ _ => hmode, fun i s hx => exec_completes fun x hi => absurd hi (hx x),
    fun s hinv => step_completes hinv.mode_ne_invalid, fun x s hmode hlast => ?_⟩
  have hr : s.blk.running = true := Block.running_iff.2 (hlast.imp And.left And.left)
  exact exec_wrSample_of_mode_invalid x hr hmode fun hk => (completedWindow_eq_none_iff hr).1 hk hlast

end Sys2Proof.Proofs
end

section
/-! SUPPORT. The two forms of `rst` (spec/70_reset_and_hazards.md R176), and the zeroed banks after reset (R177). -/

namespace Sys2Proof.Machine

theorem bankGet_zeroBank (j : Slot) : bankGet zeroBank j = 0#32 :=
  List.getElem_replicate _

/-! ### `rst` as a step (R176) -/

section
variable {s t : State} {i : Instr} {rest : List HostOp}

theorem step_of_host_rst (h : s.host = .rst :: rest) : step s = .next ((s.setHost rest).resetBlock.setResp .none) := by
  rw [step, h]

theorem step_of_host_rstInFlight {sel : BitVec 11} {data : Word} (h : s.host = .rstInFlight sel data :: rest) :
    step s = resetInFlight (decodeBusop sel data) (s.setHost rest) := by
  rw [step, h]

/-- Resetting the block forgets all that an instruction did but its response. -/
theorem resetBlock_of_exec (h : exec i s = .next t) : t.resetBlock = s.resetBlock.setResp t.resp := by
  obtain ⟨⟨hpar, hhost, hdraws⟩, -⟩ := exec_inv h
  simp only [State.resetBlock, State.setBlk, State.setResp, hpar, hhost, hdraws]

/-- The two outcomes of U5's draw, for an operation that would complete: the block is reset in both, and the master saw no
response, the operation being dropped, or the operation's own. -/
theorem resetInFlight_cases (h : exec i s = .next t) :
    resetInFlight i s = .next (s.resetBlock.setResp .none).drawn ∨
    resetInFlight i s = .next (s.resetBlock.setResp t.resp).drawn := by
  unfold resetInFlight
  split
  · rw [h, ← resetBlock_of_exec h]
    exact .inr rfl
  · exact .inl rfl

end

end Sys2Proof.Machine
end

section
/-! PROOF. The statements about reset (spec/70_reset_and_hazards.md R176, R177). -/

namespace Sys2Proof.Proofs

open Sys2Proof.Machine

/-- Settles O9: `rst` and SOFT_RESET are one update of the state. In flight, the operation completes under the invariant, and the
reset keeps of it at most the response. -/
theorem resetIsOneEffect : Obligations.ResetIsOneEffect := by
  unfold Obligations.ResetIsOneEffect
  refine ⟨fun s rest h => step_of_host_rst h, fun s => rfl, fun s sel data rest hinv hhost => ?_⟩
  obtain ⟨u, hu⟩ : ∃ u, exec (decodeBusop sel data) (s.setHost rest) = .next u :=
    exec_completes fun _ _ => hinv.mode_ne_invalid
  rw [step_of_host_rstInFlight hhost]
  obtain hdropped | hcompleted := resetInFlight_cases hu
  · exact ⟨_, u, hdropped, hu, .inl rfl⟩
  · exact ⟨_, u, hcompleted, hu, .inr rfl⟩

/-- Settles O8: each register by its value in the reset state, each bank entry by `bankGet_zeroBank`, and the views (the fields
of CTRL, STATUS, `irq`, ID and VERSION) by evaluation there. -/
theorem resetValues : Obligations.ResetValues := by
  unfold Obligations.ResetValues
  have hstatus : State.reset.blk.status State.reset.par = 0x00000000#32 := by decide
  have hctrl : State.reset.blk.cfg.mode = .dual ∧ State.reset.blk.cfg.gateMargin = false ∧
      State.reset.blk.cfg.dbEn = true ∧ State.reset.blk.cfg.toneSel = 0 := by decide
  obtain ⟨hmode, hgate, hdbEn, htone⟩ := hctrl
  exact ⟨rfl, rfl, hmode, hgate, hdbEn, htone, rfl, hstatus, rfl, rfl, rfl, rfl, rfl, rfl, rfl, bankGet_zeroBank,
    bankGet_zeroBank, rfl, rfl, rfl, rfl, rfl, rfl, rfl, rfl, rfl, rfl, rfl, rfl, rfl, rfl⟩

/-- Settles O57: the reset block meets its part of the invariant under any parameters, and this hardware's are legal. -/
theorem invariantHoldsAtReset : Obligations.InvariantHoldsAtReset := by
  unfold Obligations.InvariantHoldsAtReset
  have hlegal : State.reset.par.Legal := by decide
  exact State.reset.inv_iff.2 ⟨hlegal, Block.inv_reset _⟩

end Sys2Proof.Proofs
end
